-- ==== Sys2Proof/Word.lean ====
section
/-! DEFINITION. The words of the gf256 core: field elements, table entries, the command word and the lane buses. -/

namespace Sys2Proof

/-- A field element of GF(2^8) (00_scope.md R17): bit i is the coefficient of x^i (20_memory.md R41). -/
abbrev Byte := BitVec 8

/-- An entry of LOG: 9 bits (10_state.md R22). -/
abbrev LogEntry := BitVec 9

/-- The 16-bit command word (30_encoding.md R60). -/
abbrev CmdWord := BitVec 16

/-- The wires of a lane bus of the widest instance (64 lanes). An instance with LANES lanes has the low
8*LANES of them (10_state.md R34); the others are not connected. DESIGN CHOICE, log 11: safe. -/
abbrev Bus := BitVec 512

end Sys2Proof
end

