-- ==== Sys2Proof/Config.lean ====
section
/-! DEFINITION. The constants of the hardware and the one parameter of an instance, its lane count. -/

namespace Sys2Proof

/-- The parameter of an instance (00_scope.md R8, R9): LANES = 2^lanesLog2, a power of two in 1..64.
DESIGN CHOICE, log 1: the host fixes `State : Type` without arguments, so the parameter travels in
State, where no step changes it. -/
structure Config where
  lanesLog2 : Fin 7
deriving DecidableEq, Repr

namespace Config

/-- LANES (00_scope.md R9). -/
def lanes (c : Config) : Nat := 2 ^ c.lanesLog2.val

/-- The spec's reference instance, LANES = 16 (00_scope.md R8; 92_eei_decisions.md D3). -/
def reference : Config := ⟨4⟩

/-- POLY, the reduction polynomial x^8 + x^4 + x^3 + x^2 + 1 (00_scope.md R7). -/
def poly : BitVec 9 := 0x11D#9

/-- GEN, the primitive element (00_scope.md R7). -/
def gen : Byte := 2#8

/-- LOG_ZERO, the sentinel in LOG[0] (00_scope.md R8; 10_state.md R22). -/
def logZero : LogEntry := 511#9

/-- The length of LOG (10_state.md R22). -/
def logLength : Nat := 256

/-- The length of EXP (10_state.md R23). -/
def expLength : Nat := 1024

end Config
end Sys2Proof
end

