-- ==== Sys2Proof/Syntax.lean ====
section
/-! DEFINITION. The commands of the opcode map (30_encoding.md R62) and the lines of the command-stream
syntax (30_encoding.md R68, R69). -/

namespace Sys2Proof

/-- The nine commands, one constructor per row of the opcode map (30_encoding.md R62). Their operands
travel beside the command word (R61); only EXPRD has a field of the word, its 10-bit index. -/
inductive Instr where
  /-- scalar multiply, word 0x0001 (41_scalar.md R100) -/
  | mul
  /-- scalar divide, word 0x0002 (41_scalar.md R102) -/
  | div
  /-- scalar inverse, word 0x0003 (41_scalar.md R104) -/
  | inv
  /-- scalar power, word 0x0004 (41_scalar.md R106) -/
  | pow
  /-- vector multiply, word 0x0005 (42_vector.md R120) -/
  | vmul
  /-- vector divide, word 0x0006 (42_vector.md R122) -/
  | vdiv
  /-- vector inverse, word 0x0007 (42_vector.md R124) -/
  | vinv
  /-- read one LOG entry, word 0x0008 (40_table_gen.md R89) -/
  | logrd
  /-- read the EXP entry `idx`, word 0x0009 | idx << 4 (40_table_gen.md R90) -/
  | exprd (idx : Nat)
deriving DecidableEq, Repr

/-- A command as the host offers it: the word and the two operand buses (00_scope.md R18). -/
structure Command where
  word : CmdWord
  a    : Bus
  b    : Bus
deriving DecidableEq, Repr

/-- A line of the command-stream syntax (30_encoding.md R68) or a pseudo-command (R69). Operands are
numerals, so they are natural numbers here; an assembler rejects those out of range. A vector lists
lane 0 first. -/
inductive AsmLine where
  | mul (a b : Nat)
  | div (a b : Nat)
  | inv (a : Nat)
  | pow (a e : Nat)
  | vmul (a b : List Nat)
  | vdiv (a b : List Nat)
  | vinv (a : List Nat)
  | logrd (v : Nat)
  | exprd (i : Nat)
  /-- `.word w`: a raw command word, operands 0 -/
  | word (w : Nat)
  /-- `SQR a` is `MUL a, a` -/
  | sqr (a : Nat)
  /-- `VSQR v` is `VMUL v, v` -/
  | vsqr (a : List Nat)
  /-- `RECIP a` is `INV a` -/
  | recip (a : Nat)
deriving DecidableEq, Repr

end Sys2Proof
end

