-- ==== Sys2Proof/WellFormed.lean ====
section
/-! DEFINITION. Which commands can be encoded, and which assembler lines an assembler accepts. -/

namespace Sys2Proof

/-- The EXPRD index is 10 bits, 0..1023 (30_encoding.md R61, R68); the other commands have no field. -/
def Instr.wellFormed : Instr → Bool
  | .mul | .div | .inv | .pow | .vmul | .vdiv | .vinv | .logrd => true
  | .exprd idx => decide (idx < Config.expLength)

/-- A byte operand is 0..255 (30_encoding.md R68). -/
def byteOperand (n : Nat) : Bool := decide (n < 256)

/-- A vector operand has LANES lanes, each 0..255 (30_encoding.md R68). -/
def vectorOperand (lanes : Nat) (v : List Nat) : Bool := decide (v.length = lanes) && v.all byteOperand

/-- What an assembler accepts (30_encoding.md R68): byte operands in 0..255, an EXPRD index in 0..1023,
vectors of LANES bytes, a raw word of 16 bits. -/
def AsmLine.wellFormed (lanes : Nat) : AsmLine → Bool
  | .mul a b => byteOperand a && byteOperand b
  | .div a b => byteOperand a && byteOperand b
  | .inv a => byteOperand a
  | .pow a e => byteOperand a && byteOperand e
  | .vmul a b => vectorOperand lanes a && vectorOperand lanes b
  | .vdiv a b => vectorOperand lanes a && vectorOperand lanes b
  | .vinv a => vectorOperand lanes a
  | .logrd v => byteOperand v
  | .exprd i => decide (i < Config.expLength)
  | .word w => decide (w < 65536)
  | .sqr a => byteOperand a
  | .vsqr a => vectorOperand lanes a
  | .recip a => byteOperand a

end Sys2Proof
end

