-- ==== Sys2Proof/Decode.lean ====
section
/-! DEFINITION. The decoder (30_encoding.md R60 to R66) and, after it, the encoder. -/

namespace Sys2Proof

/-- The three ways a word is reserved (30_encoding.md R64). -/
inductive Reserved where
  /-- bits 15:14 are not 0 -/
  | reservedBits
  /-- OPC is 0x0 or 0xA..0xF -/
  | reservedOpcode
  /-- bits 13:4 are not 0 in a command other than EXPRD -/
  | indexNotZero
deriving DecidableEq, Repr

/-- What a word selects: a command, or nothing (30_encoding.md R65: "the nine commands and ILLEGAL"). -/
inductive Decoded where
  | command (i : Instr)
  | illegal (why : Reserved)
deriving DecidableEq, Repr

/-- OPC, bits 3:0 (30_encoding.md R60). -/
def opcField (w : CmdWord) : BitVec 4 := w.extractLsb' 0 4

/-- IDX, bits 13:4 (30_encoding.md R60). -/
def idxField (w : CmdWord) : BitVec 10 := w.extractLsb' 4 10

/-- RSV, bits 15:14 (30_encoding.md R60). -/
def rsvField (w : CmdWord) : BitVec 2 := w.extractLsb' 14 2

/-- The commands other than EXPRD, by opcode (30_encoding.md R62, R65). -/
def opcodeRow (opc : BitVec 4) : Option Instr :=
  if opc = 0x1#4 then some .mul
  else if opc = 0x2#4 then some .div
  else if opc = 0x3#4 then some .inv
  else if opc = 0x4#4 then some .pow
  else if opc = 0x5#4 then some .vmul
  else if opc = 0x6#4 then some .vdiv
  else if opc = 0x7#4 then some .vinv
  else if opc = 0x8#4 then some .logrd
  else none

/-- The decoder: total, and a reserved word is rejected by name (30_encoding.md R64, R65). -/
def decode (w : CmdWord) : Decoded :=
  if rsvField w ≠ 0#2 then .illegal .reservedBits
  else if opcField w = 0x9#4 then .command (.exprd (idxField w).toNat)
  else
    match opcodeRow (opcField w) with
    | none => .illegal .reservedOpcode
    | some i => if idxField w = 0#10 then .command i else .illegal .indexNotZero

/-- What the host's opcode table asks: the instruction the decoder reads from a word of `nbits` bits, the
bits above them 0. Every command is one 16-bit word (30_encoding.md R60). -/
def decodeTableWord (nbits w : Nat) : Option Instr :=
  match decode (BitVec.ofNat 16 (w % 2 ^ nbits)) with
  | .command i => some i
  | .illegal _ => none

/-- The opcode of a command (30_encoding.md R62). -/
def opcodeOf : Instr → BitVec 4
  | .mul => 0x1#4
  | .div => 0x2#4
  | .inv => 0x3#4
  | .pow => 0x4#4
  | .vmul => 0x5#4
  | .vdiv => 0x6#4
  | .vinv => 0x7#4
  | .logrd => 0x8#4
  | .exprd _ => 0x9#4

/-- The IDX field of a command (30_encoding.md R60). -/
def indexOf : Instr → BitVec 10
  | .exprd idx => BitVec.ofNat 10 idx
  | .mul | .div | .inv | .pow | .vmul | .vdiv | .vinv | .logrd => 0#10

/-- The word of a command: RSV = 0, then IDX, then OPC (30_encoding.md R60, R63). -/
def encode (i : Instr) : CmdWord := (indexOf i).setWidth 16 <<< 4 ||| (opcodeOf i).setWidth 16

end Sys2Proof
end

