-- ==== Sys2Proof/Machine/Field.lean ====
section
/-! DEFINITION. GF(2^8) arithmetic of the spec's notation (00_scope.md R16): the generator's doubling step, and
the oracles that the laws of 41_scalar.md R109 and R111 compare the hardware with. -/

namespace Sys2Proof.Machine

/-- `xtime(v)` = `(v << 1) ^ (0x11D if v[7] = 1 else 0)`, taken as 8 bits (00_scope.md R16; 40_table_gen.md R80). -/
def xtime (v : Byte) : Byte :=
  let doubled : BitVec 9 := v.setWidth 9 <<< 1
  (if v.getLsbD 7 then doubled ^^^ Config.poly else doubled).setWidth 8

/-- The "equivalent reduced variant" of the step, on 8 bits (40_table_gen.md R84). -/
def xtimeReduced (v : Byte) : Byte := (v <<< 1) ^^^ (if v.getLsbD 7 then 0x1D#8 else 0#8)

/-- The carry-less product of two bytes, 15 bits: the XOR of `x << i` over the bits i set in y. -/
def clmul (x y : Byte) : BitVec 16 :=
  (List.range 8).foldl (fun acc i => if y.getLsbD i then acc ^^^ (x.setWidth 16 <<< i) else acc) 0

/-- Reduction modulo 0x11D: from bit 14 down to bit 8, a set bit is cleared by a shifted copy of the polynomial. -/
def reducePoly (p : BitVec 16) : Byte :=
  ([6, 5, 4, 3, 2, 1, 0].foldl
    (fun (acc : BitVec 16) (i : Nat) => if acc.getLsbD (i + 8) then acc ^^^ (Config.poly.setWidth 16 <<< i) else acc) p).setWidth 8

/-- `gmul(x, y)`, the oracle product (00_scope.md R16). No command computes it; the hardware reads its tables. -/
def gmul (x y : Byte) : Byte := reducePoly (clmul x y)

/-- The source's square-and-multiply power (41_scalar.md R109): eight rounds, exponent bits 7 down to 0.
An oracle; the hardware does not implement it. -/
def squareMultiply (a e : Byte) : Byte :=
  [7, 6, 5, 4, 3, 2, 1, 0].foldl
    (fun r i => let sq := gmul r r; if e.getLsbD i then gmul sq a else sq) 1

end Sys2Proof.Machine
end

