-- ==== Sys2Proof/Machine/State.lean ====
section
/-! DEFINITION. Everything the spec gives the block (10_state.md R35), as plain data, and the state after reset. -/

namespace Sys2Proof.Machine

/-- RSP_STATUS (10_state.md R28; 60_exceptions.md R141 to R144). Its 2-bit codes are `Status.code`. -/
inductive Status where
  /-- 0: the command succeeded -/
  | ok
  /-- 1: division by the additive identity -/
  | div0
  /-- 2: the inverse of the additive identity -/
  | inv0
  /-- 3: a reserved command word -/
  | illegal
deriving DecidableEq, Repr

/-- One of the two table address spaces (20_memory.md R43): the entries written since reset, addresses
strictly rising. An address not listed has no value: the spec leaves the tables unspecified until
INIT_DONE = 1 (10_state.md R35). DESIGN CHOICE, log 6: safe. `Memory 8` is a list of `Host.Cell`. -/
abbrev Memory (w : Nat) := List (Nat × BitVec w)

/-- What the outside drives at one rising edge of clk (10_state.md R34), and whether the enabled step of
the table generator or the command unit is taken at that edge (10_state.md R36: "any enabled step may be
taken next"). DESIGN CHOICE, log 2 and log 3. -/
structure Edge where
  /-- reset, active high (70_reset_and_hazards.md R160) -/
  rst      : Bool
  /-- the host offers `cmd` -/
  cmdValid : Bool
  /-- cmd_word, cmd_a and cmd_b -/
  cmd      : Command
  /-- the host accepts a waiting response -/
  rspReady : Bool
  /-- the enabled Generate or Execute step is taken at this edge -/
  unitTurn : Bool
deriving DecidableEq, Repr

/-- An edge at which the host does nothing and the unit has its turn: weak fairness (10_state.md R36). -/
def Edge.quiet : Edge := ⟨false, false, ⟨0, 0, 0⟩, false, true⟩

/-- What stops the machine. The spec gives the block no fault (60_exceptions.md R140, R157). -/
inductive Fault where
  /-- Raised by `State.expRead` for an EXP index outside 0..1023, which no command of the encoding can form
  (20_memory.md R44). Safe: the machine stops where the hardware has no behaviour (log 15). -/
  | expIndexOutside
deriving DecidableEq, Repr

/-- What the model gives no step for. -/
inductive Refusal where
  /-- Raised by an arm of `exec` for an instruction without a meaning. Safe. No arm raises it. -/
  | notModelled (mnemonic : String)
  /-- Raised by `State.whenReady`, `State.logRead` and `State.expRead` where a command would run before the
  tables are complete: 60_exceptions.md R157, "it must refuse such a step rather than pick a value". Safe (log 6, log 14). -/
  | tablesNotGenerated
deriving DecidableEq, Repr

/-- The state of the block. STATUS and PARAM (10_state.md R32, R33) are views: `State.statusReg`, `State.paramReg`. -/
structure State where
  /-- the instance's parameter LANES (00_scope.md R9); no step changes it -/
  config      : Config
  /-- LOG (10_state.md R22) -/
  log         : Memory 9
  /-- EXP (10_state.md R23) -/
  exp         : Memory 8
  /-- INIT_DONE (10_state.md R25) -/
  initDone    : Bool
  /-- TBL_OK (10_state.md R26) -/
  tblOk       : Bool
  /-- the generator's hidden progress (10_state.md R25): edges spent generating since reset. DESIGN CHOICE, log 7: safe -/
  genProgress : Nat
  /-- BUSY (10_state.md R31) -/
  busy        : Bool
  /-- LATCH_W (10_state.md R31) -/
  latchW      : CmdWord
  /-- LATCH_A (10_state.md R31), lane 0 first -/
  latchA      : List Byte
  /-- LATCH_B (10_state.md R31), lane 0 first -/
  latchB      : List Byte
  /-- RSP_VALID (10_state.md R27) -/
  rspValid    : Bool
  /-- RSP_STATUS (10_state.md R28) -/
  rspStatus   : Status
  /-- RSP_DATA (10_state.md R29), lane 0 first -/
  rspData     : List Byte
  /-- RSP_ABSENT (10_state.md R30), lane 0 first -/
  rspAbsent   : List Bool
  /-- the model's own field: what the input ports carry at the coming edges, the next one first (log 2) -/
  inputs      : List Edge
deriving DecidableEq, Repr

namespace State

/-- LANES (00_scope.md R9). -/
def lanes (s : State) : Nat := s.config.lanes

/-- The reset values of 10_state.md R35 for an instance. R35 leaves the latches unspecified: zero here
(DESIGN CHOICE, log 4: unsafe); no table entry is listed (log 6: safe). -/
def resetOf (c : Config) : State where
  config      := c
  log         := []
  exp         := []
  initDone    := false
  tblOk       := false
  genProgress := 0
  busy        := false
  latchW      := 0
  latchA      := List.replicate c.lanes 0
  latchB      := List.replicate c.lanes 0
  rspValid    := false
  rspStatus   := .ok
  rspData     := List.replicate c.lanes 0
  rspAbsent   := List.replicate c.lanes false
  inputs      := []

/-- The machine right after reset (10_state.md R35): the spec's reference instance, LANES = 16 (log 1). -/
def reset : State := resetOf Config.reference

end State
end Sys2Proof.Machine
end

