-- ==== Sys2Proof/Machine/Tables.lean ====
section
/-! DEFINITION. The two table address spaces and the table generator gf256_log_table_gen (20_memory.md R43;
40_table_gen.md R80 to R88). -/

namespace Sys2Proof.Machine

namespace Memory

/-- The canonical form: addresses strictly rising. Unlisted addresses have no value, so no entry equals one. -/
def wf {w : Nat} : Memory w → Bool
  | [] => true
  | [_] => true
  | (i, _) :: (j, v) :: rest => decide (i < j) && wf ((j, v) :: rest)

/-- The entry at an address; none where nothing has been written. -/
def read? {w : Nat} (m : Memory w) (i : Nat) : Option (BitVec w) :=
  match m with
  | [] => none
  | (j, v) :: rest => if j = i then some v else read? rest i

/-- `MemWrite` (00_scope.md R14): the generator's write of one entry; keeps the canonical form. -/
def write {w : Nat} (m : Memory w) (i : Nat) (v : BitVec w) : Memory w :=
  match m with
  | [] => [(i, v)]
  | (j, u) :: rest =>
    if i < j then (i, v) :: (j, u) :: rest
    else if i = j then (i, v) :: rest
    else (j, u) :: write rest i v

end Memory

/-- 2^i in the field, by the recurrence `EXP[i] = xtime(EXP[i-1])`, `EXP[0] = 1` (40_table_gen.md R82). -/
def power : Nat → Byte
  | 0 => 1
  | i + 1 => xtime (power i)

/-- `EXP_GEN[i]`: powers, periodic and zero region (40_table_gen.md R82; 10_state.md R23). -/
def expEntry (i : Nat) : Byte :=
  if i ≤ 254 then power i else if i ≤ 509 then power (i - 255) else 0

/-- `LOG_GEN[v]`: the sentinel at 0, else the i in 0..254 with `EXP[i] = v` (40_table_gen.md R81). -/
def logEntry (v : Byte) : LogEntry :=
  if v = 0 then Config.logZero
  else
    match (List.range 255).find? (fun i => power i == v) with
    | some i => BitVec.ofNat 9 i
    | none => Config.logZero

/-- `EXP_GEN`, the final EXP contents (40_table_gen.md R82). -/
def expGen : Memory 8 := (List.range Config.expLength).map fun i => (i, expEntry i)

/-- `LOG_GEN`, the final LOG contents (40_table_gen.md R81). -/
def logGen : Memory 9 := (List.range Config.logLength).map fun i => (i, logEntry (BitVec.ofNat 8 i))

/-- TBL_OK's check: every nonzero value 1..255 appears exactly once in EXP[0..254] (10_state.md R26). -/
def tableCheck (m : Memory 8) : Bool :=
  let powers := ((List.range 255).filterMap m.read?).map BitVec.toNat
  (List.range 255).all fun k => powers.count (k + 1) == 1

/-- What the procedure of 40_table_gen.md R80 has built so far. -/
structure Generation where
  x   : BitVec 9
  log : Memory 9
  exp : Memory 8
deriving DecidableEq, Repr

/-- The loop of R80 over i in 1..254: double on 9 bits, reduce, write EXP[i] and LOG[x]. -/
def generationRound (g : Generation) (i : Nat) : Generation :=
  let doubled := g.x <<< 1
  let x := if 256 ≤ doubled.toNat then doubled ^^^ Config.poly else doubled
  { x := x, log := g.log.write x.toNat (BitVec.ofNat 9 i), exp := g.exp.write i (x.setWidth 8) }

/-- The whole procedure of 40_table_gen.md R80, write by write, on empty tables. `expGen` and `logGen` are its
results (R81, R82); the machine's Generate step writes those (10_state.md R36). -/
def runGenerator : Generation :=
  let start : Generation := { x := 1, log := Memory.write [] 1 0, exp := Memory.write [] 0 1 }
  let powers := (List.range 254).foldl (fun g k => generationRound g (k + 1)) start
  let periodic := (List.range 255).foldl
    (fun (m : Memory 8) j => match m.read? j with | some v => m.write (255 + j) v | none => m) powers.exp
  let zeros := (List.range 514).foldl (fun (m : Memory 8) k => m.write (510 + k) 0) periodic
  { x := powers.x, log := powers.log.write 0 Config.logZero, exp := zeros }

end Sys2Proof.Machine
end

