-- ==== Sys2Proof/Machine/Ops.lean ====
section
/-! DEFINITION. The shared operations: lanes and buses, table lookups, writing a response (and the error response,
the only exception this block has), and what each step of 10_state.md R36 does to the state. -/

namespace Sys2Proof.Machine

/-- What a meaning answers. -/
abbrev Result (α : Type) := Host.Outcome α Fault Refusal

/-- Go on with the value of a lookup, or stop as it stopped. -/
def andThen {α β : Type} (r : Result α) (k : α → Result β) : Result β :=
  match r with
  | .next a => k a
  | .fault f => .fault f
  | .refused q => .refused q

/-- "for each lane l" (00_scope.md R13): the values of the listed lanes, each computed on its own. -/
def forLanes {α : Type} (f : Nat → Result α) : List Nat → Result (List α)
  | [] => .next []
  | l :: ls => andThen (f l) fun v => andThen (forLanes f ls) fun vs => .next (v :: vs)

/-! ### Lanes and buses (20_memory.md R40) -/

/-- `V.lane(l)` of a latched vector (00_scope.md R13). Every lane below LANES is listed (`State.Inv`). -/
def lane (v : List Byte) (l : Nat) : Byte := v.getD l 0

/-- The lanes of a bus: lane l is bits [8l+7:8l], for l below LANES (20_memory.md R40). -/
def lanesOfBus (lanes : Nat) (bus : Bus) : List Byte :=
  (List.range lanes).map fun l => bus.extractLsb' (8 * l) 8

/-- The bus that carries a vector: lane 0 is the least significant byte (20_memory.md R40). -/
def busOfLanes : List Byte → Bus
  | [] => 0
  | v :: vs => v.setWidth 512 ||| (busOfLanes vs <<< 8)

/-- rsp_absent as a number of wires: bit l belongs to lane l (20_memory.md R40). -/
def busOfBits : List Bool → BitVec 64
  | [] => 0
  | b :: bs => (if b then 1 else 0) ||| (busOfBits bs <<< 1)

namespace State

/-- The lane numbers 0..LANES-1. -/
def laneList (s : State) : List Nat := List.range s.lanes

/-! ### Table lookups (00_scope.md R14) -/

/-- `LogRead(i)` (00_scope.md R14). An entry that has no value yet is refused (60_exceptions.md R157). -/
def logRead (s : State) (i : Byte) : Result LogEntry :=
  match s.log.read? i.toNat with
  | some v => .next v
  | none => .refused .tablesNotGenerated

/-- `ExpRead(i)` (00_scope.md R14). The index is an integer: R103 forms a negative one for a zero divisor.
An index outside 0..1023 faults (log 15); an entry that has no value yet is refused (60_exceptions.md R157). -/
def expRead (s : State) (i : Int) : Result Byte :=
  if 0 ≤ i ∧ i < Config.expLength then
    match s.exp.read? i.toNat with
    | some v => .next v
    | none => .refused .tablesNotGenerated
  else .fault .expIndexOutside

/-! ### Writing a response -/

/-- `respond(status, data, absent)` and BUSY <- 0: all that a command writes (00_scope.md R15; 10_state.md R36, R37). -/
def respond (s : State) (status : Status) (data : List Byte) (absent : List Bool) : State :=
  { s with rspStatus := status, rspData := data, rspAbsent := absent, rspValid := true, busy := false }

/-- `respond_scalar(status, v, absent0)`: lane 0 carries the result, the other lanes are absent (30_encoding.md R67). -/
def respondScalar (s : State) (status : Status) (v : Byte) (absent0 : Bool) : State :=
  s.respond status (v :: List.replicate (s.lanes - 1) 0) (absent0 :: List.replicate (s.lanes - 1) true)

/-- `raise <Error>`: all-zero data, every lane absent (00_scope.md R15; 60_exceptions.md R141 to R143). This is
the block's only exception: it saves nothing, changes no mode and transfers no control, and there is no return
from it (60_exceptions.md R148, R149). -/
def raise (s : State) (status : Status) : State :=
  s.respond status (List.replicate s.lanes 0) (List.replicate s.lanes true)

/-- No command has a meaning before the tables are complete (60_exceptions.md R157; log 14). -/
def whenReady (s : State) (k : Result State) : Result State :=
  if s.initDone then k else .refused .tablesNotGenerated

/-! ### The other steps of 10_state.md R36 -/

/-- Reset: every piece of state takes its reset value; the parameter and the outside world are not the
block's to reset (70_reset_and_hazards.md R160; 10_state.md R33). -/
def resetStep (s : State) : State := { resetOf s.config with inputs := s.inputs }

/-- Generate: LOG <- LOG_GEN; EXP <- EXP_GEN; TBL_OK <- check(EXP_GEN); INIT_DONE <- 1 (10_state.md R36). -/
def generateStep (s : State) : State :=
  { s with log := logGen, exp := expGen, tblOk := tableCheck expGen, initDone := true,
           genProgress := s.genProgress + 1 }

/-- An edge the generator has not finished at: only its hidden progress moves (10_state.md R25; log 7). -/
def generatingStep (s : State) : State := { s with genProgress := s.genProgress + 1 }

/-- Accept: the command on the port is latched and BUSY becomes 1 (10_state.md R36; 20_memory.md R46). -/
def acceptStep (s : State) (c : Command) : State :=
  { s with latchW := c.word, latchA := lanesOfBus s.lanes c.a, latchB := lanesOfBus s.lanes c.b, busy := true }

/-- Consume: RSP_VALID becomes 0 and the response registers keep their bits (10_state.md R36; 20_memory.md R47). -/
def consumeStep (s : State) : State := { s with rspValid := false }

/-! ### The input ports -/

/-- What the ports carry at the next edge; where nothing is listed the host is quiet (log 2). -/
def edge (s : State) : Edge := s.inputs.headD Edge.quiet

/-- The edges after the next one. -/
def popEdge (s : State) : State := { s with inputs := s.inputs.tail }

/-! ### Placing a command (log 12) -/

/-- `s` with the tables complete, the word `w` accepted (operands as the latches hold them), no response waiting,
and a quiet edge next: the state in which the next step executes `w`. -/
def placeCommand (s : State) (w : CmdWord) : State :=
  let ready := if s.initDone then s else s.generateStep
  { ready with latchW := w, busy := true, rspValid := false, inputs := Edge.quiet :: s.inputs }

end State
end Sys2Proof.Machine
end

