-- ==== Sys2Proof/Machine/Operands.lean ====
section
/-! DEFINITION. The operand forms of the commands (30_encoding.md R61) and the EXP indices they form
(41_scalar.md R108). -/

namespace Sys2Proof.Machine
namespace State

/-- `A.lane(l)` (30_encoding.md R61). -/
def laneA (s : State) (l : Nat) : Byte := lane s.latchA l

/-- `B.lane(l)` (30_encoding.md R61). -/
def laneB (s : State) (l : Nat) : Byte := lane s.latchB l

/-- `a = LATCH_A.lane(0)`: the first scalar operand and the LOGRD index (30_encoding.md R61). -/
def opA (s : State) : Byte := s.laneA 0

/-- `b = LATCH_B.lane(0)`: the second scalar operand (30_encoding.md R61). -/
def opB (s : State) : Byte := s.laneB 0

/-- `e = LATCH_B.lane(0)`: the POW exponent, unsigned (30_encoding.md R61). -/
def opE (s : State) : Nat := (s.laneB 0).toNat

end State

/-- MUL and VMUL: `LogRead(a) + LogRead(b)` (41_scalar.md R100; 42_vector.md R120). -/
def mulIndex (la lb : LogEntry) : Int := (la.toNat : Int) + lb.toNat

/-- DIV and VDIV: `LogRead(a) + 255 - LogRead(b)` (41_scalar.md R102; 42_vector.md R122). -/
def divIndex (la lb : LogEntry) : Int := (la.toNat : Int) + 255 - lb.toNat

/-- INV and VINV: `255 - (LogRead(a) mod 255)` (41_scalar.md R104; 42_vector.md R124). -/
def invIndex (la : LogEntry) : Int := 255 - ((la.toNat % 255 : Nat) : Int)

/-- POW: `(e * LogRead(a)) mod 255` (41_scalar.md R106). -/
def powIndex (e : Nat) (la : LogEntry) : Int := ((e * la.toNat % 255 : Nat) : Int)

namespace State

/-- The lookup of MUL for nonzero operands and of every VMUL lane (41_scalar.md R100; 42_vector.md R120). -/
def productLookup (s : State) (a b : Byte) : Result Byte :=
  andThen (s.logRead a) fun la => andThen (s.logRead b) fun lb => s.expRead (mulIndex la lb)

/-- The lookup of DIV for nonzero operands and of every VDIV lane (41_scalar.md R102; 42_vector.md R122). -/
def quotientLookup (s : State) (a b : Byte) : Result Byte :=
  andThen (s.logRead a) fun la => andThen (s.logRead b) fun lb => s.expRead (divIndex la lb)

/-- The lookup of INV for a nonzero operand and of every VINV lane (41_scalar.md R104; 42_vector.md R124). -/
def inverseLookup (s : State) (a : Byte) : Result Byte :=
  andThen (s.logRead a) fun la => s.expRead (invIndex la)

/-- The lookup of POW for a nonzero base (41_scalar.md R106). -/
def powerLookup (s : State) (a : Byte) (e : Nat) : Result Byte :=
  andThen (s.logRead a) fun la => s.expRead (powIndex e la)

end State
end Sys2Proof.Machine
end

