-- ==== Sys2Proof/Machine/Flags.lean ====
section
/-! DEFINITION. The status codes, the status and absent mask of VINV, the zero-divisor check of VDIV, the STATUS
and PARAM registers, and the output ports. -/

namespace Sys2Proof.Machine

/-- The 2-bit code of RSP_STATUS (10_state.md R28). -/
def Status.code : Status → BitVec 2
  | .ok => 0
  | .div0 => 1
  | .inv0 => 2
  | .illegal => 3

namespace State

/-- VDIV's batch check: some divisor lane is 0 (42_vector.md R122). -/
def someDivisorZero (s : State) : Bool := s.laneList.any fun l => s.laneB l == 0

/-- VINV's mask M: bit l is 1 exactly where `A.lane(l) = 0` (42_vector.md R124). -/
def zeroLanes (s : State) : List Bool := s.laneList.map fun l => s.laneA l == 0

/-- VINV's status: INV0 if any lane is absent, else OK (42_vector.md R124). -/
def inverseStatus (absent : List Bool) : Status := if absent.any id then .inv0 else .ok

/-- STATUS: INIT_DONE, TBL_OK, BUSY, RSP_VALID in bits 0 to 3; bits 7:4 read 0 (10_state.md R32). It shows the bits
of the state whatever rst is (log 18). -/
def statusReg (s : State) : BitVec 8 :=
  0#4 ++ BitVec.ofBool s.rspValid ++ BitVec.ofBool s.busy ++ BitVec.ofBool s.tblOk ++ BitVec.ofBool s.initDone

/-- PARAM: LANES_LOG2 in bits 2:0; bits 7:3 read 0 (10_state.md R33). -/
def paramReg (s : State) : BitVec 8 := BitVec.ofNat 8 s.config.lanesLog2.val

/-- `cmd_ready = INIT_DONE & ~BUSY & ~RSP_VALID & ~rst` (20_memory.md R46). -/
def cmdReady (s : State) (rst : Bool) : Bool := s.initDone && !s.busy && !s.rspValid && !rst

/-- rsp_valid equals RSP_VALID, and is 0 while rst = 1 (20_memory.md R47; 70_reset_and_hazards.md R160).
DEDUCED, log 9: safe. -/
def rspValidPort (s : State) (rst : Bool) : Bool := s.rspValid && !rst

end State

/-- The output ports (10_state.md R34). -/
structure Outputs where
  cmdReady  : Bool
  rspValid  : Bool
  rspStatus : BitVec 2
  rspData   : Bus
  rspAbsent : BitVec 64
  status    : BitVec 8
  param     : BitVec 8
deriving DecidableEq, Repr

/-- The output ports of a state while the reset input is `rst` (10_state.md R34). rsp_status, rsp_data and
rsp_absent mean something only while rsp_valid = 1 (70_reset_and_hazards.md R167). The status port is not masked by
`rst`: in the cycle where rst first is 1, before its edge, it still shows the live bits (10_state.md R32), and STATUS is
0x00 from that edge on (70_reset_and_hazards.md R162). DESIGN CHOICE, log 18: unsafe for a claim about that cycle. -/
def State.outputs (s : State) (rst : Bool) : Outputs where
  cmdReady  := s.cmdReady rst
  rspValid  := s.rspValidPort rst
  rspStatus := s.rspStatus.code
  rspData   := busOfLanes s.rspData
  rspAbsent := busOfBits s.rspAbsent
  status    := s.statusReg
  param     := s.paramReg

/-- A response as the host receives it (00_scope.md R10). -/
structure Response where
  status : Status
  data   : List Byte
  absent : List Bool
deriving DecidableEq, Repr

/-- The response waiting for the host; none while RSP_VALID = 0, where the registers mean nothing
(10_state.md R35; log 8). -/
def State.response (s : State) : Option Response :=
  if s.rspValid then some ⟨s.rspStatus, s.rspData, s.rspAbsent⟩ else none

end Sys2Proof.Machine
end

