-- ==== Sys2Proof/Machine/Lanewise.lean ====
section
/-! DEFINITION. The vector field engine: VMUL, VDIV and VINV (42_vector.md). -/

namespace Sys2Proof.Machine

/-- VMUL (42_vector.md R120): the product lookup in every lane, with no zero check; no lane absent. -/
def execVmul (s : State) : Result State :=
  s.whenReady
    (andThen (forLanes (fun l => s.productLookup (s.laneA l) (s.laneB l)) s.laneList) fun d =>
      .next (s.respond .ok d (List.replicate s.lanes false)))

/-- VDIV (42_vector.md R122): DIV0 for the whole batch if some divisor lane is 0, else the quotient lookup in
every lane. -/
def execVdiv (s : State) : Result State :=
  s.whenReady
    (if s.someDivisorZero then .next (s.raise .div0)
     else
      andThen (forLanes (fun l => s.quotientLookup (s.laneA l) (s.laneB l)) s.laneList) fun d =>
        .next (s.respond .ok d (List.replicate s.lanes false)))

/-- VINV (42_vector.md R124): the inverse lookup in every lane; a zero lane's value is replaced by 0 and the lane
marked absent; INV0 if any lane is. -/
def execVinv (s : State) : Result State :=
  s.whenReady
    (andThen (forLanes (fun l => s.inverseLookup (s.laneA l)) s.laneList) fun t =>
      .next (s.respond (State.inverseStatus s.zeroLanes)
        (List.zipWith (fun z v => if z then 0 else v) s.zeroLanes t) s.zeroLanes))

end Sys2Proof.Machine
end

