-- ==== Sys2Proof/Machine/ReadBack.lean ====
section
/-! DEFINITION. Table read-back: LOGRD and EXPRD (40_table_gen.md R89, R90). -/

namespace Sys2Proof.Machine

/-- LOGRD (40_table_gen.md R89): bits 7:0 of `LOG[a]` in lane 0. Status OK. -/
def execLogrd (s : State) : Result State :=
  s.whenReady
    (andThen (s.logRead s.opA) fun v => .next (s.respondScalar .ok (v.extractLsb' 0 8) false))

/-- EXPRD (40_table_gen.md R90): `EXP[idx]` in lane 0. Status OK. -/
def execExprd (idx : Nat) (s : State) : Result State :=
  s.whenReady
    (andThen (s.expRead idx) fun v => .next (s.respondScalar .ok v false))

end Sys2Proof.Machine
end

