-- ==== Sys2Proof/Machine/Scalar.lean ====
section
/-! DEFINITION. The scalar field engine: MUL, DIV, INV and POW (41_scalar.md). -/

namespace Sys2Proof.Machine

/-- MUL (41_scalar.md R100): 0 if an operand is 0, else the product lookup. Status OK. -/
def execMul (s : State) : Result State :=
  s.whenReady
    (if s.opA = 0 ∨ s.opB = 0 then .next (s.respondScalar .ok 0 false)
     else andThen (s.productLookup s.opA s.opB) fun v => .next (s.respondScalar .ok v false))

/-- DIV (41_scalar.md R102): DIV0 if the divisor is 0, whatever the dividend; 0 if the dividend is 0; else the
quotient lookup. -/
def execDiv (s : State) : Result State :=
  s.whenReady
    (if s.opB = 0 then .next (s.raise .div0)
     else if s.opA = 0 then .next (s.respondScalar .ok 0 false)
     else andThen (s.quotientLookup s.opA s.opB) fun v => .next (s.respondScalar .ok v false))

/-- INV (41_scalar.md R104): INV0 if the operand is 0, else the inverse lookup. -/
def execInv (s : State) : Result State :=
  s.whenReady
    (if s.opA = 0 then .next (s.raise .inv0)
     else andThen (s.inverseLookup s.opA) fun v => .next (s.respondScalar .ok v false))

/-- POW (41_scalar.md R106): a zero base gives 1 for exponent 0, else 0, and never reads LOG[0] (R107); a nonzero
base gives the power lookup. Status OK. -/
def execPow (s : State) : Result State :=
  s.whenReady
    (if s.opA = 0 then .next (s.respondScalar .ok (if s.opE = 0 then 1 else 0) false)
     else andThen (s.powerLookup s.opA s.opE) fun v => .next (s.respondScalar .ok v false))

end Sys2Proof.Machine
end

