-- ==== Sys2Proof/Machine/Dispatch.lean ====
section
/-! DEFINITION. Dispatch of a decoded command (30_encoding.md R66): one arm per command. -/

namespace Sys2Proof.Machine

def exec (i : Instr) (s : State) : Host.Outcome State Fault Refusal :=
  match i with
  | .mul => Sys2Proof.Machine.execMul s
  | .div => Sys2Proof.Machine.execDiv s
  | .inv => Sys2Proof.Machine.execInv s
  | .pow => Sys2Proof.Machine.execPow s
  | .vmul => Sys2Proof.Machine.execVmul s
  | .vdiv => Sys2Proof.Machine.execVdiv s
  | .vinv => Sys2Proof.Machine.execVinv s
  | .logrd => Sys2Proof.Machine.execLogrd s
  | .exprd idx => Sys2Proof.Machine.execExprd idx s

end Sys2Proof.Machine
end

