-- ==== Sys2Proof/Machine/Clock.lean ====
section
/-! DEFINITION. One rising edge of clk: which of the steps of 10_state.md R36 is taken, and the Execute step. -/

namespace Sys2Proof.Machine
namespace State

/-- The Execute step (10_state.md R36; 30_encoding.md R66): a decodable word runs its command, a reserved word
answers ILLEGAL and reads nothing (60_exceptions.md R143). -/
def executeStep (s : State) : Result State :=
  match decode s.latchW with
  | .command i => exec i s
  | .illegal _ => .next (s.raise .illegal)

/-- The effect of one rising edge with `e` on the ports. Reset wins (70_reset_and_hazards.md R160). Before
INIT_DONE only the generator moves (R165). Then a busy unit executes, a waiting response is consumed when the host
is ready, and an offered command is accepted (20_memory.md R46, R47). What is not enabled holds. In a state a run
reaches at most one of these is enabled; elsewhere this order decides (log 10). -/
def clockEdge (e : Edge) (s : State) : Result State :=
  if e.rst then .next s.resetStep
  else if s.initDone then
    if s.busy then
      if e.unitTurn then s.executeStep else .next s
    else if s.rspValid then
      if e.rspReady then .next s.consumeStep else .next s
    else if e.cmdValid then .next (s.acceptStep e.cmd)
    else .next s
  else if e.unitTurn then .next s.generateStep
  else .next s.generatingStep

end State
end Sys2Proof.Machine
end

