-- ==== Sys2Proof/Machine/Step.lean ====
section
/-! DEFINITION. The step: one rising edge of clk (10_state.md R34, R36). -/

namespace Sys2Proof.Machine

/-- One rising edge: the next edge's inputs are taken from `inputs` and applied. -/
def step (s : State) : Host.Outcome State Fault Refusal := State.clockEdge s.edge s.popEdge

/-- `s` with the command word `w` placed so that the next step executes it (log 12). -/
def State.withFetchWord (s : State) (nbits w : Nat) : State :=
  s.placeCommand (BitVec.ofNat 16 (w % 2 ^ nbits))

end Sys2Proof.Machine
end

