-- ==== Sys2Proof/Machine/Assembler.lean ====
section
/-! DEFINITION. The command-stream syntax (30_encoding.md R68) and the pseudo-commands (R69): from a line of text to the
command the host offers. It is the host's notation; no step of the machine uses it. -/

namespace Sys2Proof.Machine

/-- A pseudo-command expands to one command (30_encoding.md R69). -/
def expandPseudo : AsmLine → AsmLine
  | .sqr a => .mul a a
  | .vsqr a => .vmul a a
  | .recip a => .inv a
  | line => line

/-- A scalar operand on its bus: in lane 0, the other lanes 0 (30_encoding.md R68). -/
def scalarBus (n : Nat) : Bus := busOfLanes [BitVec.ofNat 8 n]

/-- A vector operand on its bus, lane 0 first (30_encoding.md R68). -/
def vectorBus (v : List Nat) : Bus := busOfLanes (v.map (BitVec.ofNat 8))

/-- The command of a line: buses the command does not read are 0 (30_encoding.md R68). -/
def commandOfLine (line : AsmLine) : Command :=
  match expandPseudo line with
  | .mul a b => ⟨encode .mul, scalarBus a, scalarBus b⟩
  | .div a b => ⟨encode .div, scalarBus a, scalarBus b⟩
  | .inv a => ⟨encode .inv, scalarBus a, 0⟩
  | .pow a e => ⟨encode .pow, scalarBus a, scalarBus e⟩
  | .vmul a b => ⟨encode .vmul, vectorBus a, vectorBus b⟩
  | .vdiv a b => ⟨encode .vdiv, vectorBus a, vectorBus b⟩
  | .vinv a => ⟨encode .vinv, vectorBus a, 0⟩
  | .logrd v => ⟨encode .logrd, scalarBus v, 0⟩
  | .exprd i => ⟨encode (.exprd i), 0, 0⟩
  | .word w => ⟨BitVec.ofNat 16 w, 0, 0⟩
  | .sqr a => ⟨encode .mul, scalarBus a, scalarBus a⟩
  | .vsqr a => ⟨encode .vmul, vectorBus a, vectorBus a⟩
  | .recip a => ⟨encode .inv, scalarBus a, 0⟩

/-- The assembler rejects what is out of range (30_encoding.md R68). -/
def assemble (lanes : Nat) (line : AsmLine) : Option Command :=
  if line.wellFormed lanes then some (commandOfLine line) else none

/-! ### Text (log 16) -/

/-- The pieces of a line. -/
inductive Token where
  | word (cs : List Char)
  | comma
  | open
  | close
deriving DecidableEq, Repr

/-- An operand: a numeral or a vector. -/
inductive AsmOperand where
  | num (n : Nat)
  | vec (v : List Nat)
deriving DecidableEq, Repr

/-- The word read so far, as a token. -/
def flushWord (cur : List Char) : List Token := if cur = [] then [] else [.word cur.reverse]

/-- Splits a line; `;` starts a comment (30_encoding.md R68). -/
def tokenize (cur : List Char) : List Char → List Token
  | [] => flushWord cur
  | c :: cs =>
    if c = ';' then flushWord cur
    else if c = ' ' ∨ c = '\t' ∨ c = '\r' then flushWord cur ++ tokenize [] cs
    else if c = ',' then flushWord cur ++ .comma :: tokenize [] cs
    else if c = '[' then flushWord cur ++ .open :: tokenize [] cs
    else if c = ']' then flushWord cur ++ .close :: tokenize [] cs
    else tokenize (c :: cur) cs

/-- The value of a digit in a base up to 16. -/
def digitValue (base : Nat) (c : Char) : Option Nat :=
  let n := c.toNat
  let v := if 48 ≤ n ∧ n ≤ 57 then n - 48
    else if 97 ≤ n ∧ n ≤ 102 then n - 87
    else if 65 ≤ n ∧ n ≤ 70 then n - 55
    else 16
  if v < base then some v else none

/-- The digits of a numeral, most significant first. -/
def digitsValue (base acc : Nat) : List Char → Option Nat
  | [] => some acc
  | c :: cs =>
    match digitValue base c with
    | some v => digitsValue base (acc * base + v) cs
    | none => none

/-- A numeral: decimal or 0x-hex (30_encoding.md R68). -/
def parseNumeral : List Char → Option Nat
  | [] => none
  | [c] => digitsValue 10 0 [c]
  | '0' :: 'x' :: cs => if cs = [] then none else digitsValue 16 0 cs
  | c :: d :: cs => digitsValue 10 0 (c :: d :: cs)

/-- Where the operand reader stands: it wants an operand, is inside a vector (before or after a numeral), or is
after an operand. -/
inductive OperandMode where
  | wanted
  | inVector (acc : List Nat)
  | afterNumeral (acc : List Nat)
  | after
deriving DecidableEq, Repr

/-- The operands of a line, separated by commas; a vector is written in brackets (30_encoding.md R68). -/
def parseOperands : OperandMode → List Token → Option (List AsmOperand)
  | .wanted, .word w :: ts =>
    match parseNumeral w with
    | some n => (parseOperands .after ts).map (.num n :: ·)
    | none => none
  | .wanted, .open :: ts => parseOperands (.inVector []) ts
  | .inVector acc, .word w :: ts =>
    match parseNumeral w with
    | some n => parseOperands (.afterNumeral (acc ++ [n])) ts
    | none => none
  | .afterNumeral acc, .comma :: ts => parseOperands (.inVector acc) ts
  | .afterNumeral acc, .close :: ts => (parseOperands .after ts).map (.vec acc :: ·)
  | .after, .comma :: ts => parseOperands .wanted ts
  | .after, [] => some []
  | _, _ => none

/-- The line of a mnemonic and its operands; mnemonics are case-insensitive (30_encoding.md R68). -/
def lineOf (mnemonic : List Char) : List AsmOperand → Option AsmLine
  | [.num a, .num b] =>
    if mnemonic = ['m', 'u', 'l'] then some (.mul a b)
    else if mnemonic = ['d', 'i', 'v'] then some (.div a b)
    else if mnemonic = ['p', 'o', 'w'] then some (.pow a b)
    else none
  | [.num a] =>
    if mnemonic = ['i', 'n', 'v'] then some (.inv a)
    else if mnemonic = ['l', 'o', 'g', 'r', 'd'] then some (.logrd a)
    else if mnemonic = ['e', 'x', 'p', 'r', 'd'] then some (.exprd a)
    else if mnemonic = ['.', 'w', 'o', 'r', 'd'] then some (.word a)
    else if mnemonic = ['s', 'q', 'r'] then some (.sqr a)
    else if mnemonic = ['r', 'e', 'c', 'i', 'p'] then some (.recip a)
    else none
  | [.vec a, .vec b] =>
    if mnemonic = ['v', 'm', 'u', 'l'] then some (.vmul a b)
    else if mnemonic = ['v', 'd', 'i', 'v'] then some (.vdiv a b)
    else none
  | [.vec a] =>
    if mnemonic = ['v', 'i', 'n', 'v'] then some (.vinv a)
    else if mnemonic = ['v', 's', 'q', 'r'] then some (.vsqr a)
    else none
  | _ => none

/-- What a line of text is: no command (blank or comment), a command, or not of the syntax. -/
inductive ParsedLine where
  | blank
  | line (l : AsmLine)
  | malformed
deriving DecidableEq, Repr

/-- One line of the command-stream syntax (30_encoding.md R68). -/
def parseLine (text : List Char) : ParsedLine :=
  match tokenize [] text with
  | [] => .blank
  | .word m :: ts =>
    match parseOperands .wanted ts with
    | some ops =>
      match lineOf (m.map Char.toLower) ops with
      | some l => .line l
      | none => .malformed
    | none => .malformed
  | _ => .malformed

/-- A line of text to the command offered; none where the assembler rejects it or there is no command. -/
def assembleText (lanes : Nat) (text : List Char) : Option Command :=
  match parseLine text with
  | .line l => assemble lanes l
  | .blank | .malformed => none

end Sys2Proof.Machine
end

