-- ==== Sys2Proof/Safety.lean ====
section
/-! DEFINITION. The terms that statements are made in: completed tables, the invariant of a run, the values the
rules give over the generated tables, what a host observes, and when a run has ended. -/

namespace Sys2Proof

/-! ### The values the rules give over the generated tables -/

namespace Rule

/-- The v of MUL (41_scalar.md R100). -/
def product (a b : Byte) : Byte :=
  if a = 0 ∨ b = 0 then 0 else Machine.expEntry ((Machine.logEntry a).toNat + (Machine.logEntry b).toNat)

/-- The v of DIV for a nonzero divisor (41_scalar.md R102). -/
def quotient (a b : Byte) : Byte :=
  if a = 0 then 0 else Machine.expEntry ((Machine.logEntry a).toNat + 255 - (Machine.logEntry b).toNat)

/-- The v of INV for a nonzero operand (41_scalar.md R104). -/
def inverse (a : Byte) : Byte := Machine.expEntry (255 - (Machine.logEntry a).toNat % 255)

/-- The v of POW (41_scalar.md R106). -/
def power (a : Byte) (e : Nat) : Byte :=
  if a = 0 then (if e = 0 then 1 else 0) else Machine.expEntry (e * (Machine.logEntry a).toNat % 255)

end Rule

namespace Machine

/-! ### States -/

namespace State

/-- The tables are complete: INIT_DONE = 1 and LOG and EXP hold what the generator wrote (10_state.md R22 to R25). -/
def TablesReady (s : State) : Prop := s.initDone = true ∧ s.log = logGen ∧ s.exp = expGen

/-- What holds of the block in every run. -/
structure Inv (s : State) : Prop where
  /-- every bus has LANES lanes (00_scope.md R9) -/
  latchA_lanes : s.latchA.length = s.lanes
  latchB_lanes : s.latchB.length = s.lanes
  data_lanes   : s.rspData.length = s.lanes
  absent_lanes : s.rspAbsent.length = s.lanes
  /-- the tables keep their canonical form -/
  log_wf       : s.log.wf = true
  exp_wf       : s.exp.wf = true
  /-- once INIT_DONE is 1 the tables are the generated ones and TBL_OK is 1 (10_state.md R24, R26) -/
  tables       : s.initDone = true → s.log = logGen ∧ s.exp = expGen ∧ s.tblOk = true
  /-- before INIT_DONE no check has passed and no command is in the block (10_state.md R25, R26) -/
  waiting      : s.initDone = false → s.tblOk = false ∧ s.busy = false ∧ s.rspValid = false
  /-- at most one command is in the block, latched or answered (20_memory.md R48) -/
  one_command  : ¬(s.busy = true ∧ s.rspValid = true)
  /-- a lane marked absent holds 0 (10_state.md R29) -/
  absent_zero  : ∀ l, s.rspAbsent.getD l false = true → lane s.rspData l = 0

/-- A state with completed tables and the given vectors latched, nothing waiting: for statements that compare
commands on chosen operands. -/
def readyWith (c : Config) (a b : List Byte) : State :=
  { (resetOf c).generateStep with latchA := a, latchB := b }

end State

/-- The lane-0 value a command answers on scalar operands; none where the lane is absent (10_state.md R30). -/
def answer (c : Config) (i : Instr) (a b : Byte) : Option Byte :=
  match exec i (State.readyWith c [a] [b]) with
  | .next t => if t.rspAbsent.headD true then none else some (lane t.rspData 0)
  | .fault _ => none
  | .refused _ => none

/-! ### The host's edges -/

/-- The host offers a command. -/
def Edge.offer (c : Command) : Edge := ⟨false, true, c, false, true⟩

/-- The host takes a waiting response. -/
def Edge.collect : Edge := ⟨false, false, ⟨0, 0, 0⟩, true, true⟩

/-- The host asserts rst. -/
def Edge.assertReset : Edge := ⟨true, false, ⟨0, 0, 0⟩, false, false⟩

/-- The edges of one command's passage through the block (95_test_vectors.md Part 3), with the edges at which it
waits: for the host's offer, for OP_LATENCY to pass, and for the host to take the response (70_reset_and_hazards.md
R165, R166, R170). -/
structure Exchange where
  idle    : List Edge
  offer   : Edge
  working : List Edge
  finish  : Edge
  held    : List Edge
  collect : Edge
deriving DecidableEq, Repr

namespace Exchange

/-- No edge asserts rst. The host offers nothing while idle, then offers a command; the unit has no turn while working,
then finishes; the host is not ready while the response is held, then collects. Whatever else the ports carry at these
edges is free. -/
def legal (x : Exchange) : Bool :=
  x.idle.all (fun e => !e.rst && !e.cmdValid) && (!x.offer.rst && x.offer.cmdValid) &&
  x.working.all (fun e => !e.rst && !e.unitTurn) && (!x.finish.rst && x.finish.unitTurn) &&
  x.held.all (fun e => !e.rst && !e.rspReady) && (!x.collect.rst && x.collect.rspReady)

/-- The edges in order. -/
def edges (x : Exchange) : List Edge :=
  x.idle ++ x.offer :: (x.working ++ x.finish :: (x.held ++ [x.collect]))

/-- Accept, Execute and Consume with no waiting edge. -/
def prompt (c : Command) : Exchange := ⟨[], Edge.offer c, [], Edge.quiet, [], Edge.collect⟩

end Exchange

/-! ### Runs -/

/-- A command as the block holds it: the word and the lanes of its operands (10_state.md R31). -/
structure Latched where
  word : CmdWord
  a    : List Byte
  b    : List Byte
deriving DecidableEq, Repr

/-- What the latch holds. -/
def State.latched (s : State) : Latched := ⟨s.latchW, s.latchA, s.latchB⟩

/-- A command as an instance with `lanes` lanes latches it (20_memory.md R40, R46). -/
def Command.latched (lanes : Nat) (c : Command) : Latched := ⟨c.word, lanesOfBus lanes c.a, lanesOfBus lanes c.b⟩

/-- The command in the block, latched or answered: at most one (20_memory.md R48). -/
def State.inFlight (s : State) : List Latched := if s.busy || s.rspValid then [s.latched] else []

/-- The command accepted at the next edge: the one on the port, if cmd_valid = 1 and cmd_ready = 1 (20_memory.md R46). -/
def State.acceptance (s : State) : Option Latched :=
  if s.cmdReady s.edge.rst && s.edge.cmdValid then some (Command.latched s.lanes s.edge.cmd) else none

/-- An accepted command paired with its response (70_reset_and_hazards.md R171). -/
structure Observation where
  command  : Latched
  response : Response
deriving DecidableEq, Repr

/-- What the host receives at the next edge: a response, if rsp_valid = 1 and rsp_ready = 1 (20_memory.md R47). The
latch still holds the response's command, because it is written only at acceptance (10_state.md R31; log 5). -/
def State.observation (s : State) : Option Observation :=
  if s.rspValidPort s.edge.rst && s.edge.rspReady then s.response.map (Observation.mk s.latched) else none

/-- What a function of the coming edge yields along a run of k steps, in order. -/
def collectRun {α : Type} (f : State → Option α) : Nat → State → List α
  | 0, _ => []
  | k + 1, s =>
    (f s).toList ++
      (match step s with
       | .next t => collectRun f k t
       | .fault _ => []
       | .refused _ => [])

/-- The observation of a run of k steps: the responses the host accepted, in order (70_reset_and_hazards.md R171). -/
def observe (k : Nat) (s : State) : List Observation := collectRun State.observation k s

/-- The commands accepted in a run of k steps, in order (20_memory.md R48). -/
def acceptances (k : Nat) (s : State) : List Latched := collectRun State.acceptance k s

/-- A run has ended: the tables are complete, no command is in the block and the host offers none
(70_reset_and_hazards.md R171). -/
def State.RunEnded (s : State) : Prop :=
  s.initDone = true ∧ s.busy = false ∧ s.rspValid = false ∧ ∀ e ∈ s.inputs, e.cmdValid = false

end Machine
end Sys2Proof
end

