-- ==== Sys2Proof/Certificates/Slice0/Obligations.lean ====
section
/-! DEFINITION. The statements about the gf256 core, for the provers. Each docstring names the rule it formalises. -/

open Sys2Proof Sys2Proof.Machine

/-! ### Encoding (30_encoding.md) -/

/-- Decoding an encoded well-formed command gives it back (30_encoding.md R60, R62, R65). -/
def Obligations.DecodeInvertsEncode : Prop :=
  ∀ i : Instr, i.wellFormed = true → decode (encode i) = .command i

/-- Each word that decodes is the encoding of the command it decodes to, which is well formed (30_encoding.md R60 to R65). -/
def Obligations.EncodeInvertsDecode : Prop :=
  ∀ (w : CmdWord) (i : Instr), decode w = .command i → i.wellFormed = true ∧ encode i = w

/-- 30_encoding.md R62: a word selects a row exactly when `w & mask == match`, for the nine rows of the opcode map. -/
def Obligations.DecodeSelectsOpcodeMapRow : Prop :=
  ∀ w : CmdWord,
    (decode w = .command .mul ↔ w &&& 0xFFFF#16 = 0x0001#16) ∧
    (decode w = .command .div ↔ w &&& 0xFFFF#16 = 0x0002#16) ∧
    (decode w = .command .inv ↔ w &&& 0xFFFF#16 = 0x0003#16) ∧
    (decode w = .command .pow ↔ w &&& 0xFFFF#16 = 0x0004#16) ∧
    (decode w = .command .vmul ↔ w &&& 0xFFFF#16 = 0x0005#16) ∧
    (decode w = .command .vdiv ↔ w &&& 0xFFFF#16 = 0x0006#16) ∧
    (decode w = .command .vinv ↔ w &&& 0xFFFF#16 = 0x0007#16) ∧
    (decode w = .command .logrd ↔ w &&& 0xFFFF#16 = 0x0008#16) ∧
    (∀ idx : Nat, decode w = .command (.exprd idx) ↔
      w &&& 0xC00F#16 = 0x0009#16 ∧ idx = ((w >>> 4) &&& 0x03FF#16).toNat)

/-- 30_encoding.md R64: the three cases of a reserved word, and its ILLEGAL response, which does nothing else. -/
def Obligations.ReservedWordsAnswerIllegal : Prop :=
  ∀ w : CmdWord,
    ((∃ why, decode w = .illegal why) ↔
      (w.extractLsb' 0 4 = 0x0#4 ∨ 10 ≤ (w.extractLsb' 0 4).toNat) ∨
      (w.extractLsb' 0 4 ≠ 0x9#4 ∧ w.extractLsb' 4 12 ≠ 0#12) ∨
      (w.extractLsb' 0 4 = 0x9#4 ∧ w.extractLsb' 14 2 ≠ 0#2)) ∧
    ∀ s : State, (∃ why, decode w = .illegal why) → s.latchW = w →
      s.initDone = true → s.busy = true → s.edge.rst = false → s.edge.unitTurn = true →
      step s = .next (s.popEdge.respond .illegal (List.replicate s.lanes 0) (List.replicate s.lanes true))

/-- 30_encoding.md R70: the encoding examples, through the decoder and the assembler, for LANES = 4. -/
def Obligations.EncodingExamples : Prop :=
  assemble 4 (.mul 5 60) = some ⟨0x0001, 0x05, 0x3C⟩ ∧
  assemble 4 (.pow 4 2) = some ⟨0x0004, 0x04, 0x02⟩ ∧
  decode 0x0001#16 = .command .mul ∧ decode 0x0004#16 = .command .pow ∧
  encode (.exprd 255) = 0x0FF9#16 ∧ decode 0x0FF9#16 = .command (.exprd 255) ∧
  encode (.exprd 1023) = 0x3FF9#16 ∧ decode 0x3FF9#16 = .command (.exprd 1023) ∧
  encode (.exprd 0) = 0x0009#16 ∧ decode 0x0009#16 = .command (.exprd 0) ∧
  decode 0x0011#16 = .illegal .indexNotZero ∧ decode 0x4009#16 = .illegal .reservedBits

/-- 30_encoding.md R68, R69: what the assembler accepts, and the command it emits, for every line form. Vectors are
stated by their lanes. That `.word w` is accepted exactly for w < 65536, and that a pseudo-command takes the operands of
its expansion, is the model's choice (log 16): R68 asks only that byte operands and an EXPRD index out of range be
rejected. -/
def Obligations.AssemblerEmitsTheCommand : Prop :=
  ∀ (n : Nat) (c : Command), n ≤ 64 →
    (∀ a b, assemble n (.mul a b) = some c ↔
      a < 256 ∧ b < 256 ∧ c = ⟨0x0001, BitVec.ofNat 512 a, BitVec.ofNat 512 b⟩) ∧
    (∀ a b, assemble n (.div a b) = some c ↔
      a < 256 ∧ b < 256 ∧ c = ⟨0x0002, BitVec.ofNat 512 a, BitVec.ofNat 512 b⟩) ∧
    (∀ a, assemble n (.inv a) = some c ↔ a < 256 ∧ c = ⟨0x0003, BitVec.ofNat 512 a, 0⟩) ∧
    (∀ a e, assemble n (.pow a e) = some c ↔
      a < 256 ∧ e < 256 ∧ c = ⟨0x0004, BitVec.ofNat 512 a, BitVec.ofNat 512 e⟩) ∧
    (∀ a, assemble n (.logrd a) = some c ↔ a < 256 ∧ c = ⟨0x0008, BitVec.ofNat 512 a, 0⟩) ∧
    (∀ i, assemble n (.exprd i) = some c ↔ i < 1024 ∧ c = ⟨BitVec.ofNat 16 (9 + 16 * i), 0, 0⟩) ∧
    (∀ w, assemble n (.word w) = some c ↔ w < 65536 ∧ c = ⟨BitVec.ofNat 16 w, 0, 0⟩) ∧
    (∀ a b, assemble n (.vmul a b) = some c →
      c.word = 0x0005 ∧ lanesOfBus n c.a = a.map (BitVec.ofNat 8) ∧ lanesOfBus n c.b = b.map (BitVec.ofNat 8)) ∧
    (∀ a b, assemble n (.vdiv a b) = some c →
      c.word = 0x0006 ∧ lanesOfBus n c.a = a.map (BitVec.ofNat 8) ∧ lanesOfBus n c.b = b.map (BitVec.ofNat 8)) ∧
    (∀ a, assemble n (.vinv a) = some c →
      c.word = 0x0007 ∧ lanesOfBus n c.a = a.map (BitVec.ofNat 8) ∧ c.b = 0) ∧
    (∀ a b, (∃ d, assemble n (.vmul a b) = some d) ↔
      a.length = n ∧ b.length = n ∧ (∀ x ∈ a, x < 256) ∧ ∀ x ∈ b, x < 256) ∧
    (∀ a b, (∃ d, assemble n (.vdiv a b) = some d) ↔
      a.length = n ∧ b.length = n ∧ (∀ x ∈ a, x < 256) ∧ ∀ x ∈ b, x < 256) ∧
    (∀ a, (∃ d, assemble n (.vinv a) = some d) ↔ a.length = n ∧ ∀ x ∈ a, x < 256) ∧
    (∀ a, assemble n (.sqr a) = assemble n (.mul a a)) ∧
    (∀ a, assemble n (.vsqr a) = assemble n (.vmul a a)) ∧
    (∀ a, assemble n (.recip a) = assemble n (.inv a))

/-! ### The table generator (40_table_gen.md) -/

/-- 40_table_gen.md R80: the generator's procedure, write by write, ends with LOG_GEN and EXP_GEN (R81, R82), and its
check of the result passes. -/
def Obligations.GeneratorProcedureBuildsTables : Prop :=
  runGenerator.log = logGen ∧ runGenerator.exp = expGen ∧ tableCheck runGenerator.exp = true

/-- 40_table_gen.md R83: EXP[0..254] are the 255 nonzero bytes, each exactly once; one more step of the recurrence gives
1, and no earlier power with i > 0 is 1. -/
def Obligations.PowersEnumerateNonzeroBytes : Prop :=
  (∀ i, i < 255 → expEntry i ≠ 0) ∧
  (∀ v : Byte, v ≠ 0 → ∃ i, i < 255 ∧ expEntry i = v ∧ ∀ j, j < 255 → expEntry j = v → j = i) ∧
  xtime (expEntry 254) = 1 ∧ (∀ i, 0 < i → i < 255 → expEntry i ≠ 1) ∧
  tableCheck expGen = true

/-- 40_table_gen.md R87 (a) to (f), of the entries that the tables hold after generation. -/
def Obligations.GeneratedTableInvariants : Prop :=
  (∀ v : Byte, expGen.read? v.toNat = some (expEntry v.toNat) ∧ logGen.read? v.toNat = some (logEntry v)) ∧
  (∀ v : Byte, v ≠ 0 → expGen.read? (logEntry v).toNat = some v) ∧
  (∀ i, i ≤ 254 → logGen.read? (expEntry i).toNat = some (BitVec.ofNat 9 i)) ∧
  (∀ i, i ≤ 509 → expGen.read? i = expGen.read? (i % 255)) ∧
  (∀ i, 510 ≤ i → i ≤ 1023 → expGen.read? i = some 0) ∧
  (∀ i, i ≤ 509 → ∃ v, expGen.read? i = some v ∧ v ≠ 0) ∧
  (∀ v : Byte, v ≠ 0 → (logEntry v).toNat ≤ 254) ∧ logEntry 0 = 511

/-- 40_table_gen.md R88: the source's conformance values. -/
def Obligations.ConformanceValues : Prop :=
  logGen.read? 1 = some 0 ∧ logGen.read? 2 = some 1 ∧ logGen.read? 3 = some 25 ∧
  expGen.read? 0 = some 1 ∧ expGen.read? 1 = some 2 ∧ expGen.read? 255 = some 1

/-- 40_table_gen.md R84: the 8-bit variant of the step gives the same EXP[i] for every i in 1..254. -/
def Obligations.ReducedStepGivesTheSameTable : Prop :=
  ∀ i, 1 ≤ i → i ≤ 254 → expEntry i = xtimeReduced (expEntry (i - 1))

/-- 10_state.md R36, the Generate step, with TBL_OK = 1 as R26 and 40_table_gen.md R83 say; STATUS is then 0x03
(70_reset_and_hazards.md R162). That one edge completes the generation is the model's choice (log 2, log 3); genProgress
is the model's representation of a hidden state (log 7). -/
def Obligations.GenerateStepCompletesTables : Prop :=
  ∀ s : State, s.initDone = false → s.edge.rst = false → s.edge.unitTurn = true →
    step s = .next { s.popEdge with
      log := logGen, exp := expGen, tblOk := true, initDone := true, genProgress := s.genProgress + 1 } ∧
    (s.busy = false → s.rspValid = false → ∀ t, step s = .next t → t.statusReg = 0x03#8)

/-- 40_table_gen.md R85: every reset followed by generation produces the same LOG and EXP entries and TBL_OK = 1,
whatever happened before the reset. -/
def Obligations.GenerationIsDeterministic : Prop :=
  ∀ s s₁ s₂ t t₁ t₂ : State,
    s.edge.rst = true → step s = .next s₁ → s₁.edge.rst = false → s₁.edge.unitTurn = true → step s₁ = .next s₂ →
    t.edge.rst = true → step t = .next t₁ → t₁.edge.rst = false → t₁.edge.unitTurn = true → step t₁ = .next t₂ →
    s₂.log = t₂.log ∧ s₂.exp = t₂.exp ∧ s₂.tblOk = true ∧ t₂.tblOk = true ∧
    (∀ i : Byte, ∃ v, s₂.logRead i = .next v) ∧ (∀ i : Nat, i < 1024 → ∃ v, s₂.expRead i = .next v)

/-- 10_state.md R24: from INIT_DONE = 1 until the next reset no step writes either table. -/
def Obligations.TablesAreReadOnly : Prop :=
  ∀ s t : State, s.initDone = true → s.edge.rst = false → step s = .next t →
    t.initDone = true ∧ t.log = s.log ∧ t.exp = s.exp ∧
    (∀ i, t.logRead i = s.logRead i) ∧ (∀ i, t.expRead i = s.expRead i)

/-- 10_state.md R25: the generator's progress is hidden. Two states that differ only in it step alike, to states that
differ only in it, and show the same on every output port and to the host (how it is represented is the model's choice,
log 7). -/
def Obligations.GeneratorProgressIsHidden : Prop :=
  ∀ (s : State) (n : Nat),
    (∀ t, step s = .next t → ∃ m, step { s with genProgress := n } = .next { t with genProgress := m }) ∧
    (∀ f, step s = .fault f → step { s with genProgress := n } = .fault f) ∧
    (∀ q, step s = .refused q → step { s with genProgress := n } = .refused q) ∧
    (∀ rst, State.outputs { s with genProgress := n } rst = s.outputs rst) ∧
    State.response { s with genProgress := n } = s.response ∧
    State.observation { s with genProgress := n } = s.observation ∧
    State.acceptance { s with genProgress := n } = s.acceptance

/-! ### Reset (70_reset_and_hazards.md) -/

/-- 10_state.md R35: the reset values the spec gives, for every instance; `State.reset` is the reference instance. -/
def Obligations.ResetValues : Prop :=
  State.reset = State.resetOf Config.reference ∧ State.reset.lanes = 16 ∧
  ∀ c : Config,
    let r := State.resetOf c
    r.initDone = false ∧ r.tblOk = false ∧ r.busy = false ∧ r.rspValid = false ∧ r.rspStatus.code = 0#2 ∧
    r.rspData = List.replicate c.lanes 0 ∧ r.rspAbsent = List.replicate c.lanes false ∧
    r.statusReg = 0x00#8 ∧ r.paramReg = BitVec.ofNat 8 c.lanesLog2.val

/-- 70_reset_and_hazards.md R160: an edge with rst = 1 gives every piece of state the reset value the spec states for
it, discards a command and a response, and does not affect PARAM; cmd_ready and rsp_valid are 0 while rst = 1. -/
def Obligations.ResetEdgeResetsTheBlock : Prop :=
  ∀ s : State, s.edge.rst = true →
    s.cmdReady true = false ∧ s.rspValidPort true = false ∧
    ∃ t, step s = .next t ∧
      t.initDone = false ∧ t.tblOk = false ∧ t.busy = false ∧ t.rspValid = false ∧
      t.rspStatus = .ok ∧ t.rspData = List.replicate s.lanes 0 ∧ t.rspAbsent = List.replicate s.lanes false ∧
      t.genProgress = 0 ∧ t.response = none ∧ (∀ i, exec i t = .refused .tablesNotGenerated) ∧
      t.paramReg = s.paramReg ∧ t.config = s.config ∧ t.inputs = s.inputs.tail

/-! ### The handshake (20_memory.md R46, R47) -/

/-- 20_memory.md R46: cmd_ready; acceptance latches the command on the port and sets BUSY; values on the command port at
any other edge have no effect, and neither has cmd_valid while cmd_ready = 0. -/
def Obligations.CommandAcceptance : Prop :=
  ∀ (s : State) (e : Edge) (rest : List Edge),
    s.cmdReady e.rst = (s.initDone && !s.busy && !s.rspValid && !e.rst) ∧
    (s.cmdReady e.rst = true → e.cmdValid = true →
      step { s with inputs := e :: rest } = .next { s with
        latchW := e.cmd.word, latchA := lanesOfBus s.lanes e.cmd.a, latchB := lanesOfBus s.lanes e.cmd.b,
        busy := true, inputs := rest }) ∧
    (∀ c : Command, (s.cmdReady e.rst && e.cmdValid) = false →
      step { s with inputs := { e with cmd := c } :: rest } = step { s with inputs := e :: rest }) ∧
    (∀ v : Bool, s.cmdReady e.rst = false →
      step { s with inputs := { e with cmdValid := v } :: rest } = step { s with inputs := e :: rest })

/-- 70_reset_and_hazards.md R165, R166: while cmd_ready = 0 an offered command is held, before the tables are complete
and while a command is in the block: the latch keeps its contents and no command is accepted. And the edges at which the
block only waits: a busy unit without its turn keeps the latched command (10_state.md R31); a generator that has not
finished leaves INIT_DONE, TBL_OK and the tables as they are (10_state.md R25; 40_table_gen.md R86; only its hidden count
moves, log 7); a ready block that is offered nothing changes nothing (60_exceptions.md R156). That a waiting edge is one
with `unitTurn` false is the model's choice (log 2, log 3). -/
def Obligations.CommandHeldWhileNotReady : Prop :=
  (∀ s t : State, s.edge.rst = false → s.cmdReady false = false → step s = .next t →
    t.latchW = s.latchW ∧ t.latchA = s.latchA ∧ t.latchB = s.latchB ∧ (t.busy = true → s.busy = true)) ∧
  (∀ s : State, s.edge.rst = false → s.initDone = true → s.busy = true → s.edge.unitTurn = false →
    step s = .next s.popEdge) ∧
  (∀ s : State, s.edge.rst = false → s.initDone = false → s.edge.unitTurn = false →
    step s = .next { s.popEdge with genProgress := s.genProgress + 1 }) ∧
  (∀ s : State, s.edge.rst = false → s.cmdReady false = true → s.edge.cmdValid = false →
    step s = .next s.popEdge)

/-- 20_memory.md R47: a response waits until rsp_ready, then RSP_VALID becomes 0; the response register keeps its value.
The premise Inv rules out a command and a response at once, which no run reaches (R48). -/
def Obligations.ResponseHeldUntilAccepted : Prop :=
  ∀ s : State, s.Inv → s.rspValid = true → s.edge.rst = false →
    s.rspValidPort false = true ∧ step s = .next { s.popEdge with rspValid := !s.edge.rspReady }

/-! ### Registers and buses -/

/-- 10_state.md R32: the fields of STATUS. That the port shows them also in the cycle where rst is 1, before its edge, is the
model's choice (log 18). -/
def Obligations.StatusRegisterFields : Prop :=
  ∀ s : State,
    s.statusReg.getLsbD 0 = s.initDone ∧ s.statusReg.getLsbD 1 = s.tblOk ∧ s.statusReg.getLsbD 2 = s.busy ∧
    s.statusReg.getLsbD 3 = s.rspValid ∧ s.statusReg.extractLsb' 4 4 = 0#4 ∧
    ∀ rst, (s.outputs rst).status = s.statusReg

/-- 10_state.md R33: PARAM holds LANES_LOG2 in bits 2:0, 0 in bits 7:3, and no step, reset included, changes it. -/
def Obligations.ParamRegisterIsConstant : Prop :=
  ∀ s : State,
    (s.paramReg.extractLsb' 0 3).toNat ≤ 6 ∧ 2 ^ (s.paramReg.extractLsb' 0 3).toNat = s.lanes ∧
    s.paramReg.extractLsb' 3 5 = 0#5 ∧ (∀ rst, (s.outputs rst).param = s.paramReg) ∧
    ∀ t, step s = .next t → t.paramReg = s.paramReg

/-- 10_state.md R28, R34; 60_exceptions.md R141 to R144; 20_memory.md R46, R47: the status codes, and that rsp_status,
rsp_valid and cmd_ready carry RSP_STATUS, RSP_VALID and the readiness. That rsp_valid is masked by rst within the cycle
is log 9. -/
def Obligations.StatusCodes : Prop :=
  Status.ok.code = 0#2 ∧ Status.div0.code = 1#2 ∧ Status.inv0.code = 2#2 ∧ Status.illegal.code = 3#2 ∧
  ∀ (s : State) (rst : Bool),
    (s.outputs rst).rspStatus = s.rspStatus.code ∧
    (s.outputs rst).rspValid = s.rspValidPort rst ∧ s.rspValidPort rst = (s.rspValid && !rst) ∧
    (s.outputs rst).cmdReady = s.cmdReady rst ∧
    s.cmdReady rst = (s.initDone && !s.busy && !s.rspValid && !rst)

/-- 20_memory.md R40, 10_state.md R34: lane l is at bits [8l+7:8l] of a bus, absent bit l belongs to lane l; packing
loses nothing; rsp_data and rsp_absent carry RSP_DATA and RSP_ABSENT so packed, lane by lane in every state of the
invariant. -/
def Obligations.LaneOrderOnBuses : Prop :=
  (∀ (v : List Byte) (l : Nat), v.length ≤ 64 → l < v.length → (busOfLanes v).extractLsb' (8 * l) 8 = lane v l) ∧
  (∀ (n l : Nat) (b : Bus), l < n → lane (lanesOfBus n b) l = b.extractLsb' (8 * l) 8) ∧
  (∀ (m : List Bool) (l : Nat), m.length ≤ 64 → l < m.length → (busOfBits m).getLsbD l = m.getD l false) ∧
  (∀ v : List Byte, v.length ≤ 64 → lanesOfBus v.length (busOfLanes v) = v) ∧
  (∀ (s : State) (rst : Bool),
    (s.outputs rst).rspData = busOfLanes s.rspData ∧ (s.outputs rst).rspAbsent = busOfBits s.rspAbsent) ∧
  ∀ (s : State) (rst : Bool) (l : Nat), s.Inv → l < s.lanes →
    (s.outputs rst).rspData.extractLsb' (8 * l) 8 = lane s.rspData l ∧
    (s.outputs rst).rspAbsent.getLsbD l = s.rspAbsent.getD l false

/-! ### The scalar commands (41_scalar.md) -/

/-- 41_scalar.md R100: MUL. -/
def Obligations.MulResult : Prop :=
  encode .mul = 0x0001#16 ∧ decode 0x0001#16 = .command .mul ∧ ∀ s : State, s.TablesReady →
    exec .mul s = .next (s.respondScalar .ok (Rule.product s.opA s.opB) false)

/-- 41_scalar.md R101: the single lookup of MUL, without a zero check, gives the v of R100 for every pair. -/
def Obligations.MulLookupNeedsNoZeroCheck : Prop :=
  ∀ s : State, s.TablesReady → ∀ a b : Byte, s.productLookup a b = .next (Rule.product a b)

/-- 41_scalar.md R111: MUL is the carry-less product reduced modulo 0x11D, for every pair. -/
def Obligations.MulIsTheFieldProduct : Prop :=
  ∀ s : State, s.TablesReady → exec .mul s = .next (s.respondScalar .ok (gmul s.opA s.opB) false)

/-- 41_scalar.md R102: DIV. -/
def Obligations.DivResult : Prop :=
  encode .div = 0x0002#16 ∧ decode 0x0002#16 = .command .div ∧ ∀ s : State, s.TablesReady →
    exec .div s = .next
      (if s.opB = 0 then s.respondScalar .div0 0 true else s.respondScalar .ok (Rule.quotient s.opA s.opB) false)

/-- 41_scalar.md R103: for a nonzero divisor the single lookup of DIV needs no check of the dividend; for a zero divisor
it gives no quotient: index 255 for 0 / 0, a negative index for the others. -/
def Obligations.DivLookupNeedsTheDivisorCheck : Prop :=
  ∀ s : State, s.TablesReady →
    (∀ a b : Byte, b ≠ 0 → s.quotientLookup a b = .next (Rule.quotient a b)) ∧
    (∀ b : Byte, b ≠ 0 → 512 ≤ divIndex (logEntry 0) (logEntry b) ∧ divIndex (logEntry 0) (logEntry b) ≤ 766) ∧
    divIndex (logEntry 0) (logEntry 0) = 255 ∧ s.expRead 255 = .next 1 ∧
    (∀ a : Byte, a ≠ 0 → divIndex (logEntry a) (logEntry 0) = ((logEntry a).toNat : Int) - 256 ∧
      divIndex (logEntry a) (logEntry 0) < 0)

/-- 41_scalar.md R104: INV. -/
def Obligations.InvResult : Prop :=
  encode .inv = 0x0003#16 ∧ decode 0x0003#16 = .command .inv ∧ ∀ s : State, s.TablesReady →
    exec .inv s = .next
      (if s.opA = 0 then s.respondScalar .inv0 0 true else s.respondScalar .ok (Rule.inverse s.opA) false)

/-- 41_scalar.md R105: without the zero check the formula would give 0x8E for 0; the INV0 response replaces it. -/
def Obligations.InvZeroCheckIsRequired : Prop :=
  ∀ s : State, s.TablesReady →
    (logEntry 0).toNat % 255 = 1 ∧ s.inverseLookup 0 = .next 0x8E#8 ∧
    (s.opA = 0 → exec .inv s = .next (s.raise .inv0))

/-- 41_scalar.md R106: POW. -/
def Obligations.PowResult : Prop :=
  encode .pow = 0x0004#16 ∧ decode 0x0004#16 = .command .pow ∧ ∀ s : State, s.TablesReady →
    exec .pow s = .next (s.respondScalar .ok (Rule.power s.opA s.opB.toNat) false)

/-- 41_scalar.md R107: POW with a zero base reads no table: whatever the tables hold, the response is the same; the
formula without the check would read a nonzero entry. -/
def Obligations.PowZeroBaseReadsNoTable : Prop :=
  (∀ (s : State) (l : Memory 9) (x : Memory 8), s.initDone = true → s.opA = 0 →
    exec .pow { s with log := l, exp := x } =
      .next ({ s with log := l, exp := x }.respondScalar .ok (if s.opB = 0 then 1 else 0) false)) ∧
  ∀ e, 1 ≤ e → e ≤ 255 → e * (logEntry 0).toNat % 255 = e % 255 ∧ expEntry (e % 255) ≠ 0

/-- 41_scalar.md R109: POW equals the square-and-multiply power, for every base and exponent. -/
def Obligations.PowIsSquareAndMultiply : Prop :=
  ∀ s : State, s.TablesReady → exec .pow s = .next (s.respondScalar .ok (squareMultiply s.opA s.opB) false)

/-- 41_scalar.md R111: MUL is commutative and associative, distributes over XOR, and has 1 and 0 as the rules say, as
answers of the command. -/
def Obligations.MulObeysTheFieldLaws : Prop :=
  ∀ (c : Config) (a b d : Byte),
    answer c .mul a b = answer c .mul b a ∧
    (∃ ab bd p, answer c .mul a b = some ab ∧ answer c .mul b d = some bd ∧
      answer c .mul ab d = some p ∧ answer c .mul a bd = some p) ∧
    (∃ ab ad, answer c .mul a b = some ab ∧ answer c .mul a d = some ad ∧
      answer c .mul a (b ^^^ d) = some (ab ^^^ ad)) ∧
    answer c .mul a 1 = some a ∧ answer c .mul a 0 = some 0

/-- 41_scalar.md R111, R110, R104: inverse and quotient undo the product, as answers of the commands. -/
def Obligations.InverseAndQuotientUndoTheProduct : Prop :=
  ∀ (c : Config) (a b : Byte), b ≠ 0 →
    (∃ v, answer c .inv b 0 = some v ∧ answer c .mul b v = some 1 ∧ answer c .inv v 0 = some b) ∧
    (∃ p, answer c .mul a b = some p ∧ answer c .div p b = some a) ∧
    answer c .div b b = some 1 ∧ answer c .div a 0 = none ∧ answer c .inv 0 a = none

/-- 41_scalar.md R111, R106, R110: POW(a, 0) = 1, POW(a, 1) = a, POW(a, 2) = a * a, and a^255 = 1 for a != 0. -/
def Obligations.PowSmallExponents : Prop :=
  ∀ (c : Config) (a : Byte),
    answer c .pow a 0 = some 1 ∧ answer c .pow a 1 = some a ∧ answer c .pow a 2 = answer c .mul a a ∧
    (a ≠ 0 → answer c .pow a 255 = some 1)

/-- 30_encoding.md R67: a scalar command answers in lane 0; the other lanes hold 0 and are absent. -/
def Obligations.ScalarResultConvention : Prop :=
  ∀ (s t : State) (i : Instr),
    (i = .mul ∨ i = .div ∨ i = .inv ∨ i = .pow ∨ i = .logrd ∨ ∃ idx, i = .exprd idx) → exec i s = .next t →
    t.rspData.length = s.lanes ∧ t.rspAbsent.length = s.lanes ∧
    ∀ l, 1 ≤ l → l < s.lanes → lane t.rspData l = 0 ∧ t.rspAbsent.getD l false = true

/-! ### The vector commands (42_vector.md) -/

/-- 42_vector.md R120: VMUL. -/
def Obligations.VmulResult : Prop :=
  encode .vmul = 0x0005#16 ∧ decode 0x0005#16 = .command .vmul ∧ ∀ s : State, s.TablesReady →
    exec .vmul s = .next (s.respond .ok
      ((List.range s.lanes).map fun l => expEntry ((logEntry (s.laneA l)).toNat + (logEntry (s.laneB l)).toNat))
      (List.replicate s.lanes false))

/-- 42_vector.md R121: lane l of VMUL is MUL of lane l of the operands, and no lane is absent. -/
def Obligations.VmulIsMulLaneByLane : Prop :=
  ∀ s : State, s.TablesReady →
    ∃ t, exec .vmul s = .next t ∧ t.rspAbsent = List.replicate s.lanes false ∧
      ∀ l, l < s.lanes → ∀ u : State, u.TablesReady → u.opA = s.laneA l → u.opB = s.laneB l →
        exec .mul u = .next (u.respondScalar .ok (lane t.rspData l) false)

/-- 42_vector.md R122: VDIV, all or nothing. -/
def Obligations.VdivResult : Prop :=
  encode .vdiv = 0x0006#16 ∧ decode 0x0006#16 = .command .vdiv ∧ ∀ s : State, s.TablesReady →
    ((∃ l, l < s.lanes ∧ s.laneB l = 0) →
      exec .vdiv s = .next (s.respond .div0 (List.replicate s.lanes 0) (List.replicate s.lanes true))) ∧
    ((∀ l, l < s.lanes → s.laneB l ≠ 0) →
      exec .vdiv s = .next (s.respond .ok
        ((List.range s.lanes).map fun l =>
          expEntry ((logEntry (s.laneA l)).toNat + 255 - (logEntry (s.laneB l)).toNat))
        (List.replicate s.lanes false)))

/-- 42_vector.md R123: with no zero divisor lane, lane l of VDIV is DIV of lane l; with one, VDIV fails the batch; with
LANES = 1 the two commands answer alike. -/
def Obligations.VdivIsDivLaneByLane : Prop :=
  ∀ s : State, s.TablesReady →
    ∃ t, exec .vdiv s = .next t ∧
      ((∀ l, l < s.lanes → s.laneB l ≠ 0) → t.rspStatus = .ok ∧
        ∀ l, l < s.lanes → ∀ u : State, u.TablesReady → u.opA = s.laneA l → u.opB = s.laneB l →
          exec .div u = .next (u.respondScalar .ok (lane t.rspData l) false)) ∧
      ((∃ l, l < s.lanes ∧ s.laneB l = 0) →
        t.rspStatus = .div0 ∧ ∀ l, l < s.lanes → t.rspAbsent.getD l false = true) ∧
      (s.lanes = 1 → exec .vdiv s = exec .div s)

/-- 42_vector.md R124: VINV with its per-lane absent mask. -/
def Obligations.VinvResult : Prop :=
  encode .vinv = 0x0007#16 ∧ decode 0x0007#16 = .command .vinv ∧ ∀ s : State, s.TablesReady →
    exec .vinv s = .next (s.respond
      (if ∃ l ∈ List.range s.lanes, s.laneA l = 0 then .inv0 else .ok)
      ((List.range s.lanes).map fun l => if s.laneA l = 0 then 0 else Rule.inverse (s.laneA l))
      ((List.range s.lanes).map fun l => decide (s.laneA l = 0)))

/-- 42_vector.md R125: lane l of VINV is INV of lane l, absent where INV is; its status is INV0 exactly when some lane's
is; with LANES = 1 the two commands answer alike. -/
def Obligations.VinvIsInvLaneByLane : Prop :=
  ∀ s : State, s.TablesReady →
    ∃ t, exec .vinv s = .next t ∧
      (∀ l, l < s.lanes → ∀ u u' : State, u.TablesReady → u.opA = s.laneA l → exec .inv u = .next u' →
        lane t.rspData l = lane u'.rspData 0 ∧ t.rspAbsent.getD l false = u'.rspAbsent.getD 0 false ∧
        (u'.rspStatus = .inv0 ↔ s.laneA l = 0)) ∧
      (t.rspStatus = .inv0 ↔ ∃ l, l < s.lanes ∧ s.laneA l = 0) ∧ (t.rspStatus = .inv0 ∨ t.rspStatus = .ok) ∧
      (s.lanes = 1 → exec .vinv s = exec .inv s)

/-- 42_vector.md R126: a lane of VMUL or VINV, and VINV's absent bit, depend only on that lane of the operands, not on
the lane's number, on LANES or on the other lanes; in VDIV only the batch check crosses lanes. -/
def Obligations.LanesAreIndependent : Prop :=
  ∀ (s t : State) (l m : Nat), s.TablesReady → t.TablesReady → l < s.lanes → m < t.lanes →
    s.laneA l = t.laneA m →
    (∀ s' t', exec .vinv s = .next s' → exec .vinv t = .next t' →
      lane s'.rspData l = lane t'.rspData m ∧ s'.rspAbsent.getD l false = t'.rspAbsent.getD m false) ∧
    (s.laneB l = t.laneB m →
      (∀ s' t', exec .vmul s = .next s' → exec .vmul t = .next t' → lane s'.rspData l = lane t'.rspData m) ∧
      (∀ s' t', exec .vdiv s = .next s' → exec .vdiv t = .next t' → s'.rspStatus = t'.rspStatus →
        lane s'.rspData l = lane t'.rspData m ∧ s'.rspAbsent.getD l false = t'.rspAbsent.getD m false))

/-! ### Table read-back (40_table_gen.md R89, R90) -/

/-- 40_table_gen.md R89: LOGRD; 0xFF appears only for a = 0. -/
def Obligations.LogrdResult : Prop :=
  encode .logrd = 0x0008#16 ∧ decode 0x0008#16 = .command .logrd ∧ ∀ s : State, s.TablesReady →
    exec .logrd s = .next (s.respondScalar .ok ((logEntry s.opA).extractLsb' 0 8) false) ∧
    ((logEntry s.opA).extractLsb' 0 8 = 0xFF#8 ↔ s.opA = 0) ∧
    ((logEntry s.opA).getLsbD 8 = true ↔ s.opA = 0)

/-- 40_table_gen.md R90: EXPRD, for every index 0..1023; the zero region answers 0 with lane 0 not absent. -/
def Obligations.ExprdResult : Prop :=
  ∀ (s : State) (idx : Nat), s.TablesReady → idx < 1024 →
    encode (.exprd idx) = BitVec.ofNat 16 (9 + 16 * idx) ∧ decode (encode (.exprd idx)) = .command (.exprd idx) ∧
    exec (.exprd idx) s = .next (s.respondScalar .ok (expEntry idx) false) ∧
    (510 ≤ idx → expEntry idx = 0) ∧ expEntry 255 = 1 ∧ expEntry 509 = 0x8E#8

/-- The model's own (log 15): an EXPRD index that no word encodes stops by name. No decoded command has one
(20_memory.md R44). -/
def Obligations.UnencodableExprdIndexFaults : Prop :=
  ∀ (s : State) (idx : Nat), s.initDone = true → 1024 ≤ idx → exec (.exprd idx) s = .fault .expIndexOutside

/-! ### Every command -/

/-- 10_state.md R37: a command writes exactly RSP_STATUS, RSP_DATA, RSP_ABSENT, RSP_VALID and BUSY, and reads none of
them; every table entry reads as before. -/
def Obligations.CommandFrame : Prop :=
  ∀ (i : Instr) (s : State),
    (∀ t, exec i s = .next t →
      t = { s with rspStatus := t.rspStatus, rspData := t.rspData, rspAbsent := t.rspAbsent,
                   rspValid := true, busy := false } ∧
      (∀ k, t.logRead k = s.logRead k) ∧ (∀ k, t.expRead k = s.expRead k)) ∧
    ∀ (st : Status) (d : List Byte) (m : List Bool) (v b : Bool),
      exec i { s with rspStatus := st, rspData := d, rspAbsent := m, rspValid := v, busy := b } = exec i s

/-- 60_exceptions.md R145: which command can produce which status. -/
def Obligations.StatusOfEachCommand : Prop :=
  ∀ s : State, s.TablesReady →
    (∀ i : Instr, i.wellFormed = true → ∃ t, exec i s = .next t) ∧
    (∀ (i : Instr) (t : State), (i = .mul ∨ i = .pow ∨ i = .vmul ∨ i = .logrd ∨ ∃ idx, i = .exprd idx) →
      exec i s = .next t → t.rspStatus = .ok) ∧
    (∀ t, exec .div s = .next t → t.rspStatus = if s.opB = 0 then .div0 else .ok) ∧
    (∀ t, exec .vdiv s = .next t →
      t.rspStatus = if ∃ l ∈ List.range s.lanes, s.laneB l = 0 then .div0 else .ok) ∧
    (∀ t, exec .inv s = .next t → t.rspStatus = if s.opA = 0 then .inv0 else .ok) ∧
    (∀ t, exec .vinv s = .next t →
      t.rspStatus = if ∃ l ∈ List.range s.lanes, s.laneA l = 0 then .inv0 else .ok) ∧
    (∀ (w : CmdWord) (why : Reserved), decode w = .illegal why →
      ∃ t, State.executeStep { s with latchW := w } = .next t ∧ t.rspStatus = .illegal)

/-- 41_scalar.md R108, 20_memory.md R44: the bounds of the EXP indices; on completed tables no well-formed command
forms an index outside EXP. -/
def Obligations.ExpIndicesStayInRange : Prop :=
  (∀ a b : Byte, a ≠ 0 → b ≠ 0 → mulIndex (logEntry a) (logEntry b) ≤ 508 ∧
    1 ≤ divIndex (logEntry a) (logEntry b) ∧ divIndex (logEntry a) (logEntry b) ≤ 509) ∧
  (∀ a b : Byte, 0 ≤ mulIndex (logEntry a) (logEntry b) ∧ mulIndex (logEntry a) (logEntry b) ≤ 1022) ∧
  (∀ a : Byte, 1 ≤ invIndex (logEntry a) ∧ invIndex (logEntry a) ≤ 255) ∧
  (∀ (a : Byte) (e : Nat), a ≠ 0 → e ≤ 255 → e * (logEntry a).toNat ≤ 64770 ∧
    0 ≤ powIndex e (logEntry a) ∧ powIndex e (logEntry a) ≤ 254) ∧
  ∀ (s : State) (i : Instr), s.TablesReady → i.wellFormed = true → exec i s ≠ .fault .expIndexOutside

/-- 60_exceptions.md R157: a command before INIT_DONE is refused, whatever the tables and the operands. -/
def Obligations.CommandBeforeTablesIsRefused : Prop :=
  ∀ (i : Instr) (s : State), s.initDone = false → exec i s = .refused .tablesNotGenerated

/-! ### The step -/

/-- 10_state.md R36, 30_encoding.md R66: with a command latched, the step is that command's meaning. -/
def Obligations.StepExecutesTheLatchedCommand : Prop :=
  ∀ (s : State) (i : Instr), s.initDone = true → s.busy = true → s.edge.rst = false → s.edge.unitTurn = true →
    decode s.latchW = .command i → step s = exec i s.popEdge

/-- The invariant holds in the reset state of every instance (10_state.md R35). -/
def Obligations.InvariantHoldsAtReset : Prop :=
  State.reset.Inv ∧ ∀ c : Config, (State.resetOf c).Inv

/-- Every step keeps the invariant (10_state.md R22 to R31; 20_memory.md R48). -/
def Obligations.EveryStepKeepsTheInvariant : Prop :=
  ∀ s t : State, s.Inv → step s = .next t → t.Inv

/-- 60_exceptions.md R140: the block has no trap. From every state of the invariant every edge leads to a next state. -/
def Obligations.NoStepStops : Prop :=
  ∀ s : State, s.Inv → ∃ t, step s = .next t

/-- 20_memory.md R50: after INIT_DONE = 1 the response is a function of the latched word and operands alone, and no
command writes a table. -/
def Obligations.ResponseDependsOnTheCommandAlone : Prop :=
  ∀ s t s' t' : State, s.Inv → t.Inv → s.config = t.config → s.initDone = true → t.initDone = true →
    s.busy = true → t.busy = true → s.latchW = t.latchW → s.latchA = t.latchA → s.latchB = t.latchB →
    s.edge.rst = false → s.edge.unitTurn = true → t.edge.rst = false → t.edge.unitTurn = true →
    step s = .next s' → step t = .next t' →
    s'.response = t'.response ∧ (∃ r, s'.response = some r) ∧
    s'.log = s.log ∧ s'.exp = s.exp

/-- 20_memory.md R48: a stream of commands, each offered, executed and collected, with any waiting edges before each of
these (70_reset_and_hazards.md R165, R166, R170), yields exactly one response each, in the order of acceptance, and leaves
the block ready; with nothing further offered the run has ended (R171). At the waiting edges the ports carry anything the
wait allows: `Exchange.legal`. That the unit has its turn at the finishing edge is part of the stated edges (log 2); the
observation names a command by the latch (log 5). -/
def Obligations.ResponsesComeInCommandOrder : Prop :=
  ∀ (xs : List Exchange) (s : State) (rest : List Edge), s.Inv → s.cmdReady false = true →
    (∀ x ∈ xs, x.legal = true) → s.inputs = xs.flatMap Exchange.edges ++ rest →
    (observe (xs.flatMap Exchange.edges).length s).map Observation.command =
      xs.map (fun x => Command.latched s.lanes x.offer.cmd) ∧
    ∃ t, Sys2Proof.core.run (xs.flatMap Exchange.edges).length s = .next t ∧ t.cmdReady false = true ∧
      t.inputs = rest ∧ ((∀ e ∈ rest, e.cmdValid = false) → t.RunEnded)

/-- 20_memory.md R48, of every run without a reset: no command is lost, answered twice or overtaken. At one step, and
along any number of them, the command in the block followed by those accepted are those answered followed by the command
in the block afterwards. (A reset discards the command in the block, 60_exceptions.md R146: ResetEdgeResetsTheBlock.) An
observation names its command by the latch (log 5). -/
def Obligations.EveryAcceptedCommandIsAnsweredOnceInOrder : Prop :=
  (∀ s t : State, s.Inv → s.edge.rst = false → step s = .next t →
    s.inFlight ++ s.acceptance.toList = (s.observation.map Observation.command).toList ++ t.inFlight) ∧
  ∀ (k : Nat) (s : State), s.Inv → (∀ e ∈ s.inputs.take k, e.rst = false) →
    ∃ t, Sys2Proof.core.run k s = .next t ∧
      s.inFlight ++ acceptances k s = (observe k s).map Observation.command ++ t.inFlight
end

