-- ==== Sys2Proof/Laws/Memory.lean ====
section
/-! SUPPORT. The laws of the table memories: the canonical form, read after write, and that a write leaves every
other entry alone. -/

namespace Sys2Proof.Machine.Memory

variable {w : Nat}

/-- The canonical form says that the addresses are strictly rising. -/
theorem wf_iff_pairwise (m : Memory w) : m.wf = true ↔ (m.map Prod.fst).Pairwise (· < ·) := by
  induction m with
  | nil => simp [wf]
  | cons c rest ih =>
    obtain ⟨i, u⟩ := c
    cases rest with
    | nil => simp [wf]
    | cons d rest =>
      obtain ⟨j, v⟩ := d
      rw [wf, Bool.and_eq_true, decide_eq_true_eq, ih]
      simp only [List.map_cons, List.pairwise_cons, List.mem_cons, forall_eq_or_imp]
      constructor
      · rintro ⟨hij, hj, hrest⟩
        exact ⟨⟨hij, fun k hk => lt_trans hij (hj k hk)⟩, hj, hrest⟩
      · rintro ⟨⟨hij, -⟩, hj, hrest⟩
        exact ⟨hij, hj, hrest⟩

@[simp] theorem wf_nil : Memory.wf ([] : Memory w) = true := rfl

/-- The addresses after a write are the old ones and the one written. -/
theorem mem_addresses_write (m : Memory w) (i : Nat) (v : BitVec w) (k : Nat) :
    k ∈ (m.write i v).map Prod.fst ↔ k = i ∨ k ∈ m.map Prod.fst := by
  induction m with
  | nil => simp [write]
  | cons c rest ih =>
    obtain ⟨j, u⟩ := c
    simp only [write]
    split
    · simp
    · split
      · subst_vars
        simp
      · simp only [List.map_cons, List.mem_cons, ih]
        tauto

/-- A write keeps the canonical form. -/
theorem wf_write (m : Memory w) (i : Nat) (v : BitVec w) (h : m.wf = true) : (m.write i v).wf = true := by
  rw [wf_iff_pairwise] at h ⊢
  induction m with
  | nil => simp [write]
  | cons c rest ih =>
    obtain ⟨j, u⟩ := c
    simp only [List.map_cons, List.pairwise_cons] at h
    simp only [write]
    split
    · rename_i hij
      simp only [List.map_cons, List.pairwise_cons, List.mem_cons, forall_eq_or_imp]
      exact ⟨⟨hij, fun k hk => lt_trans hij (h.1 k hk)⟩, h.1, h.2⟩
    · split
      · rename_i hij
        subst hij
        simpa using h
      · rename_i hlt hne
        simp only [List.map_cons, List.pairwise_cons]
        refine ⟨fun k hk => ?_, ih h.2⟩
        rcases (mem_addresses_write rest i v k).1 hk with rfl | hk
        · omega
        · exact h.1 k hk

/-- A read after a write: the value written at its address, the old value elsewhere. -/
theorem read?_write (m : Memory w) (i k : Nat) (v : BitVec w) :
    (m.write i v).read? k = if k = i then some v else m.read? k := by
  induction m with
  | nil => simp [write, read?, eq_comm]
  | cons c rest ih =>
    obtain ⟨j, u⟩ := c
    simp only [write]
    split
    · simp [read?, eq_comm]
    · split
      · subst_vars
        by_cases hk : k = j <;> simp [read?, hk, eq_comm]
      · rename_i hlt hne
        simp only [read?, ih]
        by_cases hj : j = k
        · subst hj
          simp [Ne.symm hne]
        · simp [hj]

@[simp] theorem read?_write_same (m : Memory w) (i : Nat) (v : BitVec w) : (m.write i v).read? i = some v := by
  simp [read?_write]

theorem read?_write_other (m : Memory w) (i k : Nat) (v : BitVec w) (h : k ≠ i) :
    (m.write i v).read? k = m.read? k := by
  simp [read?_write, h]

/-- Reading a table given entry by entry from an address on. -/
theorem read?_map_range' (f : Nat → BitVec w) (n start i : Nat) :
    Memory.read? ((List.range' start n).map fun k => (k, f k)) i =
      if start ≤ i ∧ i < start + n then some (f i) else none := by
  induction n generalizing start with
  | zero =>
    simp [read?]
  | succ n ih =>
    rw [List.range'_succ, List.map_cons, read?, ih]
    by_cases h : start = i
    · subst h
      simp
    · have : (start + 1 ≤ i ∧ i < start + 1 + n) ↔ (start ≤ i ∧ i < start + (n + 1)) := by omega
      simp only [h, if_false, this]

/-- Reading a table given entry by entry from address 0. -/
theorem read?_map_range (f : Nat → BitVec w) (n i : Nat) :
    Memory.read? ((List.range n).map fun k => (k, f k)) i = if i < n then some (f i) else none := by
  rw [List.range_eq_range', read?_map_range']
  simp

/-- A table given entry by entry is in canonical form. -/
theorem wf_map_range (f : Nat → BitVec w) (n : Nat) :
    Memory.wf ((List.range n).map fun k => (k, f k)) = true := by
  rw [wf_iff_pairwise, List.map_map]
  simpa [Function.comp_def] using List.pairwise_lt_range (n := n)

end Sys2Proof.Machine.Memory
end

