-- ==== Sys2Proof/Laws/State.lean ====
section
/-! SUPPORT. One lemma per field per update of State (each true by rfl), so that no proof unfolds a record update. -/

namespace Sys2Proof.Machine.State

/-! ### resetStep -/

@[simp] theorem resetStep_config (s : State) : s.resetStep.config = s.config := rfl
@[simp] theorem resetStep_log (s : State) : s.resetStep.log = [] := rfl
@[simp] theorem resetStep_exp (s : State) : s.resetStep.exp = [] := rfl
@[simp] theorem resetStep_initDone (s : State) : s.resetStep.initDone = false := rfl
@[simp] theorem resetStep_tblOk (s : State) : s.resetStep.tblOk = false := rfl
@[simp] theorem resetStep_genProgress (s : State) : s.resetStep.genProgress = 0 := rfl
@[simp] theorem resetStep_busy (s : State) : s.resetStep.busy = false := rfl
@[simp] theorem resetStep_latchW (s : State) : s.resetStep.latchW = 0 := rfl
@[simp] theorem resetStep_latchA (s : State) : s.resetStep.latchA = List.replicate s.lanes 0 := rfl
@[simp] theorem resetStep_latchB (s : State) : s.resetStep.latchB = List.replicate s.lanes 0 := rfl
@[simp] theorem resetStep_rspValid (s : State) : s.resetStep.rspValid = false := rfl
@[simp] theorem resetStep_rspStatus (s : State) : s.resetStep.rspStatus = .ok := rfl
@[simp] theorem resetStep_rspData (s : State) : s.resetStep.rspData = List.replicate s.lanes 0 := rfl
@[simp] theorem resetStep_rspAbsent (s : State) : s.resetStep.rspAbsent = List.replicate s.lanes false := rfl
@[simp] theorem resetStep_inputs (s : State) : s.resetStep.inputs = s.inputs := rfl
@[simp] theorem resetStep_lanes (s : State) : s.resetStep.lanes = s.lanes := rfl

/-! ### generateStep -/

@[simp] theorem generateStep_config (s : State) : s.generateStep.config = s.config := rfl
@[simp] theorem generateStep_log (s : State) : s.generateStep.log = logGen := by simp only [generateStep]
@[simp] theorem generateStep_exp (s : State) : s.generateStep.exp = expGen := by simp only [generateStep]
@[simp] theorem generateStep_initDone (s : State) : s.generateStep.initDone = true := rfl
@[simp] theorem generateStep_tblOk (s : State) : s.generateStep.tblOk = tableCheck expGen := by simp only [generateStep]
@[simp] theorem generateStep_genProgress (s : State) : s.generateStep.genProgress = s.genProgress + 1 := rfl
@[simp] theorem generateStep_busy (s : State) : s.generateStep.busy = s.busy := rfl
@[simp] theorem generateStep_latchW (s : State) : s.generateStep.latchW = s.latchW := rfl
@[simp] theorem generateStep_latchA (s : State) : s.generateStep.latchA = s.latchA := rfl
@[simp] theorem generateStep_latchB (s : State) : s.generateStep.latchB = s.latchB := rfl
@[simp] theorem generateStep_rspValid (s : State) : s.generateStep.rspValid = s.rspValid := rfl
@[simp] theorem generateStep_rspStatus (s : State) : s.generateStep.rspStatus = s.rspStatus := rfl
@[simp] theorem generateStep_rspData (s : State) : s.generateStep.rspData = s.rspData := rfl
@[simp] theorem generateStep_rspAbsent (s : State) : s.generateStep.rspAbsent = s.rspAbsent := rfl
@[simp] theorem generateStep_inputs (s : State) : s.generateStep.inputs = s.inputs := rfl
@[simp] theorem generateStep_lanes (s : State) : s.generateStep.lanes = s.lanes := rfl

/-! ### generatingStep -/

@[simp] theorem generatingStep_config (s : State) : s.generatingStep.config = s.config := rfl
@[simp] theorem generatingStep_log (s : State) : s.generatingStep.log = s.log := rfl
@[simp] theorem generatingStep_exp (s : State) : s.generatingStep.exp = s.exp := rfl
@[simp] theorem generatingStep_initDone (s : State) : s.generatingStep.initDone = s.initDone := rfl
@[simp] theorem generatingStep_tblOk (s : State) : s.generatingStep.tblOk = s.tblOk := rfl
@[simp] theorem generatingStep_genProgress (s : State) : s.generatingStep.genProgress = s.genProgress + 1 := rfl
@[simp] theorem generatingStep_busy (s : State) : s.generatingStep.busy = s.busy := rfl
@[simp] theorem generatingStep_latchW (s : State) : s.generatingStep.latchW = s.latchW := rfl
@[simp] theorem generatingStep_latchA (s : State) : s.generatingStep.latchA = s.latchA := rfl
@[simp] theorem generatingStep_latchB (s : State) : s.generatingStep.latchB = s.latchB := rfl
@[simp] theorem generatingStep_rspValid (s : State) : s.generatingStep.rspValid = s.rspValid := rfl
@[simp] theorem generatingStep_rspStatus (s : State) : s.generatingStep.rspStatus = s.rspStatus := rfl
@[simp] theorem generatingStep_rspData (s : State) : s.generatingStep.rspData = s.rspData := rfl
@[simp] theorem generatingStep_rspAbsent (s : State) : s.generatingStep.rspAbsent = s.rspAbsent := rfl
@[simp] theorem generatingStep_inputs (s : State) : s.generatingStep.inputs = s.inputs := rfl
@[simp] theorem generatingStep_lanes (s : State) : s.generatingStep.lanes = s.lanes := rfl

/-! ### acceptStep -/

@[simp] theorem acceptStep_config (s : State) (c : Command) : (s.acceptStep c).config = s.config := rfl
@[simp] theorem acceptStep_log (s : State) (c : Command) : (s.acceptStep c).log = s.log := rfl
@[simp] theorem acceptStep_exp (s : State) (c : Command) : (s.acceptStep c).exp = s.exp := rfl
@[simp] theorem acceptStep_initDone (s : State) (c : Command) : (s.acceptStep c).initDone = s.initDone := rfl
@[simp] theorem acceptStep_tblOk (s : State) (c : Command) : (s.acceptStep c).tblOk = s.tblOk := rfl
@[simp] theorem acceptStep_genProgress (s : State) (c : Command) : (s.acceptStep c).genProgress = s.genProgress := rfl
@[simp] theorem acceptStep_busy (s : State) (c : Command) : (s.acceptStep c).busy = true := rfl
@[simp] theorem acceptStep_latchW (s : State) (c : Command) : (s.acceptStep c).latchW = c.word := rfl
@[simp] theorem acceptStep_latchA (s : State) (c : Command) : (s.acceptStep c).latchA = lanesOfBus s.lanes c.a := rfl
@[simp] theorem acceptStep_latchB (s : State) (c : Command) : (s.acceptStep c).latchB = lanesOfBus s.lanes c.b := rfl
@[simp] theorem acceptStep_rspValid (s : State) (c : Command) : (s.acceptStep c).rspValid = s.rspValid := rfl
@[simp] theorem acceptStep_rspStatus (s : State) (c : Command) : (s.acceptStep c).rspStatus = s.rspStatus := rfl
@[simp] theorem acceptStep_rspData (s : State) (c : Command) : (s.acceptStep c).rspData = s.rspData := rfl
@[simp] theorem acceptStep_rspAbsent (s : State) (c : Command) : (s.acceptStep c).rspAbsent = s.rspAbsent := rfl
@[simp] theorem acceptStep_inputs (s : State) (c : Command) : (s.acceptStep c).inputs = s.inputs := rfl
@[simp] theorem acceptStep_lanes (s : State) (c : Command) : (s.acceptStep c).lanes = s.lanes := rfl

/-! ### consumeStep -/

@[simp] theorem consumeStep_config (s : State) : s.consumeStep.config = s.config := rfl
@[simp] theorem consumeStep_log (s : State) : s.consumeStep.log = s.log := rfl
@[simp] theorem consumeStep_exp (s : State) : s.consumeStep.exp = s.exp := rfl
@[simp] theorem consumeStep_initDone (s : State) : s.consumeStep.initDone = s.initDone := rfl
@[simp] theorem consumeStep_tblOk (s : State) : s.consumeStep.tblOk = s.tblOk := rfl
@[simp] theorem consumeStep_genProgress (s : State) : s.consumeStep.genProgress = s.genProgress := rfl
@[simp] theorem consumeStep_busy (s : State) : s.consumeStep.busy = s.busy := rfl
@[simp] theorem consumeStep_latchW (s : State) : s.consumeStep.latchW = s.latchW := rfl
@[simp] theorem consumeStep_latchA (s : State) : s.consumeStep.latchA = s.latchA := rfl
@[simp] theorem consumeStep_latchB (s : State) : s.consumeStep.latchB = s.latchB := rfl
@[simp] theorem consumeStep_rspValid (s : State) : s.consumeStep.rspValid = false := rfl
@[simp] theorem consumeStep_rspStatus (s : State) : s.consumeStep.rspStatus = s.rspStatus := rfl
@[simp] theorem consumeStep_rspData (s : State) : s.consumeStep.rspData = s.rspData := rfl
@[simp] theorem consumeStep_rspAbsent (s : State) : s.consumeStep.rspAbsent = s.rspAbsent := rfl
@[simp] theorem consumeStep_inputs (s : State) : s.consumeStep.inputs = s.inputs := rfl
@[simp] theorem consumeStep_lanes (s : State) : s.consumeStep.lanes = s.lanes := rfl

/-! ### popEdge -/

@[simp] theorem popEdge_config (s : State) : s.popEdge.config = s.config := rfl
@[simp] theorem popEdge_log (s : State) : s.popEdge.log = s.log := rfl
@[simp] theorem popEdge_exp (s : State) : s.popEdge.exp = s.exp := rfl
@[simp] theorem popEdge_initDone (s : State) : s.popEdge.initDone = s.initDone := rfl
@[simp] theorem popEdge_tblOk (s : State) : s.popEdge.tblOk = s.tblOk := rfl
@[simp] theorem popEdge_genProgress (s : State) : s.popEdge.genProgress = s.genProgress := rfl
@[simp] theorem popEdge_busy (s : State) : s.popEdge.busy = s.busy := rfl
@[simp] theorem popEdge_latchW (s : State) : s.popEdge.latchW = s.latchW := rfl
@[simp] theorem popEdge_latchA (s : State) : s.popEdge.latchA = s.latchA := rfl
@[simp] theorem popEdge_latchB (s : State) : s.popEdge.latchB = s.latchB := rfl
@[simp] theorem popEdge_rspValid (s : State) : s.popEdge.rspValid = s.rspValid := rfl
@[simp] theorem popEdge_rspStatus (s : State) : s.popEdge.rspStatus = s.rspStatus := rfl
@[simp] theorem popEdge_rspData (s : State) : s.popEdge.rspData = s.rspData := rfl
@[simp] theorem popEdge_rspAbsent (s : State) : s.popEdge.rspAbsent = s.rspAbsent := rfl
@[simp] theorem popEdge_inputs (s : State) : s.popEdge.inputs = s.inputs.tail := rfl
@[simp] theorem popEdge_lanes (s : State) : s.popEdge.lanes = s.lanes := rfl

/-! ### respond -/

@[simp] theorem respond_config (s : State) (st : Status) (d : List Byte) (m : List Bool) : (s.respond st d m).config = s.config := rfl
@[simp] theorem respond_log (s : State) (st : Status) (d : List Byte) (m : List Bool) : (s.respond st d m).log = s.log := rfl
@[simp] theorem respond_exp (s : State) (st : Status) (d : List Byte) (m : List Bool) : (s.respond st d m).exp = s.exp := rfl
@[simp] theorem respond_initDone (s : State) (st : Status) (d : List Byte) (m : List Bool) : (s.respond st d m).initDone = s.initDone := rfl
@[simp] theorem respond_tblOk (s : State) (st : Status) (d : List Byte) (m : List Bool) : (s.respond st d m).tblOk = s.tblOk := rfl
@[simp] theorem respond_genProgress (s : State) (st : Status) (d : List Byte) (m : List Bool) : (s.respond st d m).genProgress = s.genProgress := rfl
@[simp] theorem respond_busy (s : State) (st : Status) (d : List Byte) (m : List Bool) : (s.respond st d m).busy = false := rfl
@[simp] theorem respond_latchW (s : State) (st : Status) (d : List Byte) (m : List Bool) : (s.respond st d m).latchW = s.latchW := rfl
@[simp] theorem respond_latchA (s : State) (st : Status) (d : List Byte) (m : List Bool) : (s.respond st d m).latchA = s.latchA := rfl
@[simp] theorem respond_latchB (s : State) (st : Status) (d : List Byte) (m : List Bool) : (s.respond st d m).latchB = s.latchB := rfl
@[simp] theorem respond_rspValid (s : State) (st : Status) (d : List Byte) (m : List Bool) : (s.respond st d m).rspValid = true := rfl
@[simp] theorem respond_rspStatus (s : State) (st : Status) (d : List Byte) (m : List Bool) : (s.respond st d m).rspStatus = st := rfl
@[simp] theorem respond_rspData (s : State) (st : Status) (d : List Byte) (m : List Bool) : (s.respond st d m).rspData = d := rfl
@[simp] theorem respond_rspAbsent (s : State) (st : Status) (d : List Byte) (m : List Bool) : (s.respond st d m).rspAbsent = m := rfl
@[simp] theorem respond_inputs (s : State) (st : Status) (d : List Byte) (m : List Bool) : (s.respond st d m).inputs = s.inputs := rfl
@[simp] theorem respond_lanes (s : State) (st : Status) (d : List Byte) (m : List Bool) : (s.respond st d m).lanes = s.lanes := rfl

/-! ### respondScalar -/

@[simp] theorem respondScalar_config (s : State) (st : Status) (v : Byte) (z : Bool) : (s.respondScalar st v z).config = s.config := rfl
@[simp] theorem respondScalar_log (s : State) (st : Status) (v : Byte) (z : Bool) : (s.respondScalar st v z).log = s.log := rfl
@[simp] theorem respondScalar_exp (s : State) (st : Status) (v : Byte) (z : Bool) : (s.respondScalar st v z).exp = s.exp := rfl
@[simp] theorem respondScalar_initDone (s : State) (st : Status) (v : Byte) (z : Bool) : (s.respondScalar st v z).initDone = s.initDone := rfl
@[simp] theorem respondScalar_tblOk (s : State) (st : Status) (v : Byte) (z : Bool) : (s.respondScalar st v z).tblOk = s.tblOk := rfl
@[simp] theorem respondScalar_genProgress (s : State) (st : Status) (v : Byte) (z : Bool) : (s.respondScalar st v z).genProgress = s.genProgress := rfl
@[simp] theorem respondScalar_busy (s : State) (st : Status) (v : Byte) (z : Bool) : (s.respondScalar st v z).busy = false := rfl
@[simp] theorem respondScalar_latchW (s : State) (st : Status) (v : Byte) (z : Bool) : (s.respondScalar st v z).latchW = s.latchW := rfl
@[simp] theorem respondScalar_latchA (s : State) (st : Status) (v : Byte) (z : Bool) : (s.respondScalar st v z).latchA = s.latchA := rfl
@[simp] theorem respondScalar_latchB (s : State) (st : Status) (v : Byte) (z : Bool) : (s.respondScalar st v z).latchB = s.latchB := rfl
@[simp] theorem respondScalar_rspValid (s : State) (st : Status) (v : Byte) (z : Bool) : (s.respondScalar st v z).rspValid = true := rfl
@[simp] theorem respondScalar_rspStatus (s : State) (st : Status) (v : Byte) (z : Bool) : (s.respondScalar st v z).rspStatus = st := rfl
@[simp] theorem respondScalar_rspData (s : State) (st : Status) (v : Byte) (z : Bool) : (s.respondScalar st v z).rspData = v :: List.replicate (s.lanes - 1) 0 := rfl
@[simp] theorem respondScalar_rspAbsent (s : State) (st : Status) (v : Byte) (z : Bool) : (s.respondScalar st v z).rspAbsent = z :: List.replicate (s.lanes - 1) true := rfl
@[simp] theorem respondScalar_inputs (s : State) (st : Status) (v : Byte) (z : Bool) : (s.respondScalar st v z).inputs = s.inputs := rfl
@[simp] theorem respondScalar_lanes (s : State) (st : Status) (v : Byte) (z : Bool) : (s.respondScalar st v z).lanes = s.lanes := rfl

/-! ### raise -/

@[simp] theorem raise_config (s : State) (st : Status) : (s.raise st).config = s.config := rfl
@[simp] theorem raise_log (s : State) (st : Status) : (s.raise st).log = s.log := rfl
@[simp] theorem raise_exp (s : State) (st : Status) : (s.raise st).exp = s.exp := rfl
@[simp] theorem raise_initDone (s : State) (st : Status) : (s.raise st).initDone = s.initDone := rfl
@[simp] theorem raise_tblOk (s : State) (st : Status) : (s.raise st).tblOk = s.tblOk := rfl
@[simp] theorem raise_genProgress (s : State) (st : Status) : (s.raise st).genProgress = s.genProgress := rfl
@[simp] theorem raise_busy (s : State) (st : Status) : (s.raise st).busy = false := rfl
@[simp] theorem raise_latchW (s : State) (st : Status) : (s.raise st).latchW = s.latchW := rfl
@[simp] theorem raise_latchA (s : State) (st : Status) : (s.raise st).latchA = s.latchA := rfl
@[simp] theorem raise_latchB (s : State) (st : Status) : (s.raise st).latchB = s.latchB := rfl
@[simp] theorem raise_rspValid (s : State) (st : Status) : (s.raise st).rspValid = true := rfl
@[simp] theorem raise_rspStatus (s : State) (st : Status) : (s.raise st).rspStatus = st := rfl
@[simp] theorem raise_rspData (s : State) (st : Status) : (s.raise st).rspData = List.replicate s.lanes 0 := rfl
@[simp] theorem raise_rspAbsent (s : State) (st : Status) : (s.raise st).rspAbsent = List.replicate s.lanes true := rfl
@[simp] theorem raise_inputs (s : State) (st : Status) : (s.raise st).inputs = s.inputs := rfl
@[simp] theorem raise_lanes (s : State) (st : Status) : (s.raise st).lanes = s.lanes := rfl

/-! ### Views that an update does not change -/

@[simp] theorem popEdge_logRead (s : State) (i : Byte) : s.popEdge.logRead i = s.logRead i := rfl
@[simp] theorem popEdge_expRead (s : State) (i : Int) : s.popEdge.expRead i = s.expRead i := rfl
@[simp] theorem popEdge_laneA (s : State) (l : Nat) : s.popEdge.laneA l = s.laneA l := rfl
@[simp] theorem popEdge_laneB (s : State) (l : Nat) : s.popEdge.laneB l = s.laneB l := rfl
@[simp] theorem respond_logRead (s : State) (st : Status) (d : List Byte) (m : List Bool) (i : Byte) :
    (s.respond st d m).logRead i = s.logRead i := rfl
@[simp] theorem respond_expRead (s : State) (st : Status) (d : List Byte) (m : List Bool) (i : Int) :
    (s.respond st d m).expRead i = s.expRead i := rfl
@[simp] theorem respond_paramReg (s : State) (st : Status) (d : List Byte) (m : List Bool) :
    (s.respond st d m).paramReg = s.paramReg := rfl

/-- A scalar response and an error response are responses: what holds of every `respond` holds of them. -/
theorem respondScalar_eq_respond (s : State) (st : Status) (v : Byte) (z : Bool) :
    s.respondScalar st v z =
      s.respond st (v :: List.replicate (s.lanes - 1) 0) (z :: List.replicate (s.lanes - 1) true) := rfl

theorem raise_eq_respond (s : State) (st : Status) :
    s.raise st = s.respond st (List.replicate s.lanes 0) (List.replicate s.lanes true) := rfl

end Sys2Proof.Machine.State
end

