-- ==== Sys2Proof/Laws/Tables.lean ====
section
/-! SUPPORT. The generated tables: their canonical form and what reading them answers. -/

namespace Sys2Proof.Machine

@[simp] theorem expGen_wf : Memory.wf expGen = true := Memory.wf_map_range expEntry _

@[simp] theorem logGen_wf : Memory.wf logGen = true :=
  Memory.wf_map_range (fun i => logEntry (BitVec.ofNat 8 i)) _

/-- `EXP[i]` after generation, for i in 0..1023; nothing beyond. -/
theorem expGen_read? (i : Nat) : Memory.read? expGen i = if i < 1024 then some (expEntry i) else none :=
  Memory.read?_map_range expEntry 1024 i

/-- `LOG[v]` after generation, for every byte v. -/
@[simp] theorem logGen_read? (v : Byte) : Memory.read? logGen v.toNat = some (logEntry v) := by
  have h := Memory.read?_map_range (fun i => logEntry (BitVec.ofNat 8 i)) 256 v.toNat
  have hv : v.toNat < 256 := v.isLt
  simp only [hv, if_true, BitVec.ofNat_toNat, BitVec.setWidth_eq] at h
  exact h

@[simp] theorem power_zero : power 0 = 1 := rfl

theorem power_succ (i : Nat) : power (i + 1) = xtime (power i) := rfl

/-- The powers region (10_state.md R23). -/
theorem expEntry_of_le (i : Nat) (h : i ≤ 254) : expEntry i = power i := by simp [expEntry, h]

/-- The periodic region (10_state.md R23). -/
theorem expEntry_periodic (i : Nat) (h : i ≤ 254) : expEntry (i + 255) = power i := by
  have h1 : ¬ i + 255 ≤ 254 := by omega
  have h2 : i + 255 ≤ 509 := by omega
  simp [expEntry, h1, h2]

/-- The zero region (10_state.md R23). -/
theorem expEntry_zero_region (i : Nat) (h : 510 ≤ i) : expEntry i = 0 := by
  have h1 : ¬ i ≤ 254 := by omega
  have h2 : ¬ i ≤ 509 := by omega
  simp [expEntry, h1, h2]

@[simp] theorem logEntry_zero : logEntry 0 = 511 := rfl

end Sys2Proof.Machine
end

