-- ==== Sys2Proof/Laws/Ops.lean ====
section
/-! SUPPORT. One lemma per shared operation: what it answers, and on completed tables with which value. -/

namespace Sys2Proof.Machine

/-! ### Sequencing -/

section
variable {α β : Type}

@[simp] theorem andThen_next (a : α) (k : α → Result β) : andThen (.next a) k = k a := rfl

@[simp] theorem andThen_fault (f : Fault) (k : α → Result β) : andThen (.fault f) k = .fault f := rfl

@[simp] theorem andThen_refused (q : Refusal) (k : α → Result β) : andThen (.refused q) k = .refused q := rfl

/-- A sequence answers a next value only through both its parts. -/
theorem andThen_eq_next {r : Result α} {k : α → Result β} {b : β} :
    andThen r k = .next b ↔ ∃ a, r = .next a ∧ k a = .next b := by
  cases r <;> simp [andThen]

@[simp] theorem forLanes_nil (f : Nat → Result α) : forLanes f [] = .next [] := rfl

/-- Where every lane answers, the lanes' values are answered in order. -/
theorem forLanes_of_next {f : Nat → Result α} {g : Nat → α} {ls : List Nat}
    (h : ∀ l ∈ ls, f l = .next (g l)) : forLanes f ls = .next (ls.map g) := by
  induction ls with
  | nil => rfl
  | cons l ls ih =>
    simp only [List.mem_cons, forall_eq_or_imp] at h
    simp [forLanes, h.1, ih h.2]

/-- The values answered are as many as the lanes. -/
theorem forLanes_length {f : Nat → Result α} {ls : List Nat} {vs : List α}
    (h : forLanes f ls = .next vs) : vs.length = ls.length := by
  induction ls generalizing vs with
  | nil => simpa [forLanes, eq_comm] using h
  | cons l ls ih =>
    rw [forLanes, andThen_eq_next] at h
    obtain ⟨v, -, h⟩ := h
    rw [andThen_eq_next] at h
    obtain ⟨us, hus, h⟩ := h
    cases h
    simp [ih hus]

end

/-! ### Lanes -/

@[simp] theorem lane_cons_zero (v : Byte) (vs : List Byte) : lane (v :: vs) 0 = v := rfl

@[simp] theorem lane_cons_succ (v : Byte) (vs : List Byte) (l : Nat) : lane (v :: vs) (l + 1) = lane vs l := rfl

@[simp] theorem lane_replicate_zero (n l : Nat) : lane (List.replicate n 0#8) l = 0#8 := by
  simp [lane]

theorem lane_map_range (f : Nat → Byte) (n l : Nat) (h : l < n) : lane ((List.range n).map f) l = f l := by
  simp [lane, List.getD_eq_getElem?_getD, h]

@[simp] theorem lanesOfBus_length (n : Nat) (b : Bus) : (lanesOfBus n b).length = n := by simp [lanesOfBus]

theorem lane_lanesOfBus (n l : Nat) (b : Bus) (h : l < n) :
    lane (lanesOfBus n b) l = b.extractLsb' (8 * l) 8 :=
  lane_map_range _ n l h

theorem Config.lanes_pos (c : Config) : 0 < c.lanes := Nat.two_pow_pos _

theorem Config.lanes_le (c : Config) : c.lanes ≤ 64 :=
  (Nat.pow_le_pow_right (by decide) (Nat.le_of_lt_succ c.lanesLog2.isLt) : _ ≤ 2 ^ 6)

namespace State

theorem lanes_pos (s : State) : 0 < s.lanes := Config.lanes_pos s.config

@[simp] theorem laneList_length (s : State) : s.laneList.length = s.lanes := by simp [laneList]

/-- LANES = 1 + (LANES - 1): a scalar response has LANES lanes. -/
theorem lanes_sub_one (s : State) : s.lanes - 1 + 1 = s.lanes := Nat.succ_pred_eq_of_pos s.lanes_pos

/-! ### Lookups -/

/-- What a LOG lookup can answer. -/
theorem logRead_cases (s : State) (i : Byte) :
    (∃ v, s.log.read? i.toNat = some v ∧ s.logRead i = .next v) ∨
      (s.log.read? i.toNat = none ∧ s.logRead i = .refused .tablesNotGenerated) := by
  unfold logRead
  cases h : s.log.read? i.toNat <;> simp

/-- What an EXP lookup can answer. -/
theorem expRead_cases (s : State) (i : Int) :
    (∃ v, 0 ≤ i ∧ i < 1024 ∧ s.exp.read? i.toNat = some v ∧ s.expRead i = .next v) ∨
      (0 ≤ i ∧ i < 1024 ∧ s.exp.read? i.toNat = none ∧ s.expRead i = .refused .tablesNotGenerated) ∨
      (¬(0 ≤ i ∧ i < 1024) ∧ s.expRead i = .fault .expIndexOutside) := by
  by_cases h : 0 ≤ i ∧ i < 1024
  · have h' : 0 ≤ i ∧ i < ((Config.expLength : Nat) : Int) := h
    cases hv : s.exp.read? i.toNat <;> simp [expRead, h', hv, h.2]
  · have h' : ¬(0 ≤ i ∧ i < ((Config.expLength : Nat) : Int)) := h
    exact .inr (.inr ⟨h, by rw [expRead, if_neg h']⟩)

theorem TablesReady.logRead {s : State} (h : s.TablesReady) (i : Byte) : s.logRead i = .next (logEntry i) := by
  simp [State.logRead, h.2.1]

theorem TablesReady.expRead {s : State} (h : s.TablesReady) (i : Nat) (hi : i < 1024) :
    s.expRead i = .next (expEntry i) := by
  have h' : (0 : Int) ≤ i ∧ (i : Int) < ((Config.expLength : Nat) : Int) :=
    ⟨Int.natCast_nonneg i, Int.ofNat_lt.2 hi⟩
  simp [State.expRead, h', h.2.2, expGen_read?, hi]

/-- Completed tables: a meaning runs. -/
theorem TablesReady.whenReady {s : State} (h : s.TablesReady) (k : Result State) : s.whenReady k = k := by
  simp [State.whenReady, h.1]

/-- A meaning answers a next state only after INIT_DONE (60_exceptions.md R157). -/
theorem whenReady_eq_next {s t : State} {k : Result State} :
    s.whenReady k = .next t ↔ s.initDone = true ∧ k = .next t := by
  unfold State.whenReady
  split <;> simp_all

/-- The four lookups on completed tables, at an index inside EXP. -/
theorem TablesReady.productLookup {s : State} (h : s.TablesReady) (a b : Byte)
    (hi : (logEntry a).toNat + (logEntry b).toNat < 1024) :
    s.productLookup a b = .next (expEntry ((logEntry a).toNat + (logEntry b).toNat)) := by
  simpa [State.productLookup, mulIndex, h.logRead] using h.expRead _ hi

theorem TablesReady.quotientLookup {s : State} (h : s.TablesReady) (a b : Byte)
    (hb : (logEntry b).toNat ≤ (logEntry a).toNat + 255)
    (hi : (logEntry a).toNat + 255 - (logEntry b).toNat < 1024) :
    s.quotientLookup a b = .next (expEntry ((logEntry a).toNat + 255 - (logEntry b).toNat)) := by
  have hcast : divIndex (logEntry a) (logEntry b) =
      (((logEntry a).toNat + 255 - (logEntry b).toNat : Nat) : Int) := by
    simp only [divIndex]
    omega
  simpa [State.quotientLookup, hcast, h.logRead] using h.expRead _ hi

theorem TablesReady.inverseLookup {s : State} (h : s.TablesReady) (a : Byte) :
    s.inverseLookup a = .next (expEntry (255 - (logEntry a).toNat % 255)) := by
  have hcast : invIndex (logEntry a) = ((255 - (logEntry a).toNat % 255 : Nat) : Int) := by
    simp only [invIndex]
    omega
  have hi : 255 - (logEntry a).toNat % 255 < 1024 := by omega
  simpa [State.inverseLookup, hcast, h.logRead] using h.expRead _ hi

theorem TablesReady.powerLookup {s : State} (h : s.TablesReady) (a : Byte) (e : Nat) :
    s.powerLookup a e = .next (expEntry (e * (logEntry a).toNat % 255)) := by
  have hi : e * (logEntry a).toNat % 255 < 1024 := by omega
  simpa [State.powerLookup, powIndex, h.logRead] using h.expRead _ hi

/-! ### Preserving completed tables -/

/-- Writing a response keeps completed tables. -/
theorem TablesReady.respond {s : State} (h : s.TablesReady) (st : Status) (d : List Byte) (m : List Bool) :
    (s.respond st d m).TablesReady := h

theorem TablesReady.popEdge {s : State} (h : s.TablesReady) : s.popEdge.TablesReady := h

theorem tablesReady_generateStep (s : State) : s.generateStep.TablesReady := by
  simp [State.TablesReady]

theorem tablesReady_readyWith (c : Config) (a b : List Byte) : (readyWith c a b).TablesReady := by
  simp [State.TablesReady, readyWith]

end State
end Sys2Proof.Machine
end

