-- ==== Sys2Proof/Laws/PerInstr.lean ====
section
/-! SUPPORT. Statements made of every command as syntax, one lemma per constructor. -/

namespace Sys2Proof.Laws.EncodeFields

/-- The three fields of a command's word (30_encoding.md R60): its opcode, its index and RSV = 0. -/
def Statement (i : Instr) : Prop :=
  opcField (encode i) = opcodeOf i ∧ idxField (encode i) = indexOf i ∧ rsvField (encode i) = 0#2

theorem mul : Statement Instr.mul := ⟨rfl, rfl, rfl⟩
theorem div : Statement Instr.div := ⟨rfl, rfl, rfl⟩
theorem inv : Statement Instr.inv := ⟨rfl, rfl, rfl⟩
theorem pow : Statement Instr.pow := ⟨rfl, rfl, rfl⟩
theorem vmul : Statement Instr.vmul := ⟨rfl, rfl, rfl⟩
theorem vdiv : Statement Instr.vdiv := ⟨rfl, rfl, rfl⟩
theorem vinv : Statement Instr.vinv := ⟨rfl, rfl, rfl⟩
theorem logrd : Statement Instr.logrd := ⟨rfl, rfl, rfl⟩

theorem exprd (idx : Nat) : Statement (Instr.exprd idx) := by
  simp only [Statement, encode, indexOf, opcodeOf, opcField, idxField, rsvField]
  generalize BitVec.ofNat 10 idx = x
  refine ⟨?_, ?_, ?_⟩ <;> ext k hk <;> interval_cases k <;> simp [← BitVec.getLsbD_eq_getElem]

end Sys2Proof.Laws.EncodeFields
end

