-- ==== Sys2Proof/Laws/Step.lean ====
section
/-! SUPPORT. What a meaning, the Execute step and one clock edge can do, said once. -/

namespace Sys2Proof.Machine

/-- `t` is `s` with a response written: LANES lanes of data and mask, and 0 in every absent lane. -/
def Responds (s t : State) : Prop :=
  ∃ (st : Status) (d : List Byte) (m : List Bool), t = s.respond st d m ∧ d.length = s.lanes ∧
    m.length = s.lanes ∧ ∀ l, m.getD l false = true → lane d l = 0

theorem responds_raise (s : State) (st : Status) : Responds s (s.raise st) :=
  ⟨st, _, _, s.raise_eq_respond st, by simp, by simp, fun _ _ => by simp⟩

theorem responds_respondScalar (s : State) (st : Status) (v : Byte) :
    Responds s (s.respondScalar st v false) := by
  have hp := s.lanes_sub_one
  refine ⟨st, _, _, s.respondScalar_eq_respond st v false, by simpa using hp, by simpa using hp, fun l hl => ?_⟩
  cases l with
  | zero => simp at hl
  | succ l => simp

theorem responds_allLanes (s : State) (st : Status) (d : List Byte) (h : d.length = s.lanes) :
    Responds s (s.respond st d (List.replicate s.lanes false)) :=
  ⟨st, d, _, rfl, h, by simp, by simp⟩

/-- VINV's masked select leaves 0 in every absent lane. -/
theorem responds_maskedSelect (s : State) (st : Status) (t : List Byte) (h : t.length = s.lanes) :
    Responds s (s.respond st (List.zipWith (fun z v => if z then 0 else v) s.zeroLanes t) s.zeroLanes) := by
  refine ⟨st, _, _, rfl, by simp [h, State.zeroLanes], by simp [State.zeroLanes], fun l hl => ?_⟩
  simp only [lane, List.getD_eq_getElem?_getD, List.getElem?_zipWith] at hl ⊢
  cases hz : s.zeroLanes[l]? with
  | none => simp
  | some z =>
    simp only [hz, Option.getD_some] at hl
    subst hl
    cases t[l]? <;> simp

/-- A meaning that answers a next state has INIT_DONE and only writes a response. -/
theorem exec_responds {i : Instr} {s t : State} (h : exec i s = .next t) : s.initDone = true ∧ Responds s t := by
  cases i <;>
    simp only [exec, execMul, execDiv, execInv, execPow, execVmul, execVdiv, execVinv, execLogrd, execExprd,
      State.whenReady_eq_next] at h <;>
    refine ⟨h.1, ?_⟩ <;> replace h := h.2
  case vmul =>
    obtain ⟨d, hd, h⟩ := andThen_eq_next.1 h
    cases h
    exact responds_allLanes s _ d (by simpa using forLanes_length hd)
  case vdiv =>
    split at h
    · cases h
      exact responds_raise s _
    · obtain ⟨d, hd, h⟩ := andThen_eq_next.1 h
      cases h
      exact responds_allLanes s _ d (by simpa using forLanes_length hd)
  case vinv =>
    obtain ⟨d, hd, h⟩ := andThen_eq_next.1 h
    cases h
    exact responds_maskedSelect s _ d (by simpa using forLanes_length hd)
  all_goals
    repeat' split at h
    all_goals
      try simp only [andThen_eq_next, Host.Outcome.next.injEq] at h
      first
        | (subst h; exact responds_raise s _)
        | (subst h; exact responds_respondScalar s _ _)
        | (obtain ⟨v, -, rfl⟩ := h
           exact responds_respondScalar s _ _)

/-- The Execute step that answers a next state only writes a response. -/
theorem executeStep_responds {s t : State} (h : s.executeStep = .next t) : Responds s t := by
  unfold State.executeStep at h
  split at h
  · exact (exec_responds h).2
  · cases h
    exact responds_raise s _

/-- Everything a clock edge can do: reset, generate or go on generating, execute, consume, accept, or wait. -/
theorem clockEdge_cases {e : Edge} {s t : State} (h : State.clockEdge e s = .next t) :
    (e.rst = true ∧ t = s.resetStep) ∨
    (e.rst = false ∧ s.initDone = false ∧
      ((e.unitTurn = true ∧ t = s.generateStep) ∨ (e.unitTurn = false ∧ t = s.generatingStep))) ∨
    (e.rst = false ∧ s.initDone = true ∧ s.busy = true ∧
      ((e.unitTurn = true ∧ s.executeStep = .next t) ∨ (e.unitTurn = false ∧ t = s))) ∨
    (e.rst = false ∧ s.initDone = true ∧ s.busy = false ∧ s.rspValid = true ∧
      ((e.rspReady = true ∧ t = s.consumeStep) ∨ (e.rspReady = false ∧ t = s))) ∨
    (e.rst = false ∧ s.initDone = true ∧ s.busy = false ∧ s.rspValid = false ∧
      ((e.cmdValid = true ∧ t = s.acceptStep e.cmd) ∨ (e.cmdValid = false ∧ t = s))) := by
  unfold State.clockEdge at h
  repeat' split at h
  all_goals simp_all only [Host.Outcome.next.injEq, Bool.not_eq_true, Bool.false_eq_true, true_and, false_and, and_true,
    and_self, or_true, or_false, false_or, reduceCtorEq]

namespace State

/-- The invariant does not speak of the coming edges. -/
theorem Inv.withInputs {s : State} (h : s.Inv) (es : List Edge) : { s with inputs := es }.Inv := { h with }

theorem Inv.popEdge {s : State} (h : s.Inv) : s.popEdge.Inv := h.withInputs _

/-- In a state of the invariant, completed tables come with INIT_DONE. -/
theorem Inv.tablesReady {s : State} (h : s.Inv) (hi : s.initDone = true) : s.TablesReady :=
  ⟨hi, (h.tables hi).1, (h.tables hi).2.1⟩

/-- In a state of the invariant, a command in the block means that INIT_DONE is 1. -/
theorem Inv.initDone_of_busy {s : State} (h : s.Inv) (hb : s.busy = true) : s.initDone = true := by
  by_contra hc
  simp [(h.waiting (by simpa using hc)).2.1] at hb

theorem Inv.initDone_of_rspValid {s : State} (h : s.Inv) (hv : s.rspValid = true) : s.initDone = true := by
  by_contra hc
  simp [(h.waiting (by simpa using hc)).2.2] at hv

end State
end Sys2Proof.Machine
end

