-- ==== Sys2Proof/Tests/Slice0.lean ====
section
/-! SUPPORT. The model's own tests, their expected values taken from the spec, and for every statement with hypotheses a
state that meets them. -/

namespace Sys2Proof.Tests

open Sys2Proof Sys2Proof.Machine

/-! ### WellFormed refuses an ill-formed term at each check -/

theorem test_wellFormed_exprd_index : (Instr.exprd 1024).wellFormed = false := by decide
theorem test_wellFormed_byte_operand : (AsmLine.mul 256 0).wellFormed 4 = false := by decide
theorem test_wellFormed_second_operand : (AsmLine.pow 4 256).wellFormed 4 = false := by decide
theorem test_wellFormed_lane_count : (AsmLine.vinv [1, 2, 3]).wellFormed 4 = false := by decide
theorem test_wellFormed_lane_value : (AsmLine.vmul [1, 2, 3, 4] [1, 2, 256, 4]).wellFormed 4 = false := by decide
theorem test_wellFormed_raw_word : (AsmLine.word 65536).wellFormed 4 = false := by decide
theorem test_wellFormed_asm_exprd : (AsmLine.exprd 1024).wellFormed 4 = false := by decide

/-! ### Decoding: the patterns of 30_encoding.md R63, bit by bit, and 95_test_vectors.md Family 9 -/

theorem test_decode_mul : decode 0b0000000000000001#16 = .command .mul := by decide
theorem test_decode_div : decode 0b0000000000000010#16 = .command .div := by decide
theorem test_decode_inv : decode 0b0000000000000011#16 = .command .inv := by decide
theorem test_decode_pow : decode 0b0000000000000100#16 = .command .pow := by decide
theorem test_decode_vmul : decode 0b0000000000000101#16 = .command .vmul := by decide
theorem test_decode_vdiv : decode 0b0000000000000110#16 = .command .vdiv := by decide
theorem test_decode_vinv : decode 0b0000000000000111#16 = .command .vinv := by decide
theorem test_decode_logrd : decode 0b0000000000001000#16 = .command .logrd := by decide
theorem test_decode_exprd : decode 0b0010010110001001#16 = .command (.exprd 600) := by decide
theorem test_decode_zero_word : decode 0x0000#16 = .illegal .reservedOpcode := by decide
theorem test_decode_reserved_opcode : decode 0x000A#16 = .illegal .reservedOpcode := by decide
theorem test_decode_index_in_div : decode 0x0012#16 = .illegal .indexNotZero := by decide
theorem test_decode_exprd_reserved_bits : decode 0x8009#16 = .illegal .reservedBits := by decide
theorem test_decodeTableWord : decodeTableWord 16 0x0019 = some (.exprd 1) := by decide

/-! ### The tables: the listings of 40_table_gen.md R91, R92 and 41_scalar.md R112 -/

/-- EXP[0..254], as R91 lists it. -/
def expListing : List Nat :=
  [0x01, 0x02, 0x04, 0x08, 0x10, 0x20, 0x40, 0x80, 0x1D, 0x3A, 0x74, 0xE8, 0xCD, 0x87, 0x13, 0x26] ++
   [0x4C, 0x98, 0x2D, 0x5A, 0xB4, 0x75, 0xEA, 0xC9, 0x8F, 0x03, 0x06, 0x0C, 0x18, 0x30, 0x60, 0xC0] ++
   [0x9D, 0x27, 0x4E, 0x9C, 0x25, 0x4A, 0x94, 0x35, 0x6A, 0xD4, 0xB5, 0x77, 0xEE, 0xC1, 0x9F, 0x23] ++
   [0x46, 0x8C, 0x05, 0x0A, 0x14, 0x28, 0x50, 0xA0, 0x5D, 0xBA, 0x69, 0xD2, 0xB9, 0x6F, 0xDE, 0xA1] ++
   [0x5F, 0xBE, 0x61, 0xC2, 0x99, 0x2F, 0x5E, 0xBC, 0x65, 0xCA, 0x89, 0x0F, 0x1E, 0x3C, 0x78, 0xF0] ++
   [0xFD, 0xE7, 0xD3, 0xBB, 0x6B, 0xD6, 0xB1, 0x7F, 0xFE, 0xE1, 0xDF, 0xA3, 0x5B, 0xB6, 0x71, 0xE2] ++
   [0xD9, 0xAF, 0x43, 0x86, 0x11, 0x22, 0x44, 0x88, 0x0D, 0x1A, 0x34, 0x68, 0xD0, 0xBD, 0x67, 0xCE] ++
   [0x81, 0x1F, 0x3E, 0x7C, 0xF8, 0xED, 0xC7, 0x93, 0x3B, 0x76, 0xEC, 0xC5, 0x97, 0x33, 0x66, 0xCC] ++
   [0x85, 0x17, 0x2E, 0x5C, 0xB8, 0x6D, 0xDA, 0xA9, 0x4F, 0x9E, 0x21, 0x42, 0x84, 0x15, 0x2A, 0x54] ++
   [0xA8, 0x4D, 0x9A, 0x29, 0x52, 0xA4, 0x55, 0xAA, 0x49, 0x92, 0x39, 0x72, 0xE4, 0xD5, 0xB7, 0x73] ++
   [0xE6, 0xD1, 0xBF, 0x63, 0xC6, 0x91, 0x3F, 0x7E, 0xFC, 0xE5, 0xD7, 0xB3, 0x7B, 0xF6, 0xF1, 0xFF] ++
   [0xE3, 0xDB, 0xAB, 0x4B, 0x96, 0x31, 0x62, 0xC4, 0x95, 0x37, 0x6E, 0xDC, 0xA5, 0x57, 0xAE, 0x41] ++
   [0x82, 0x19, 0x32, 0x64, 0xC8, 0x8D, 0x07, 0x0E, 0x1C, 0x38, 0x70, 0xE0, 0xDD, 0xA7, 0x53, 0xA6] ++
   [0x51, 0xA2, 0x59, 0xB2, 0x79, 0xF2, 0xF9, 0xEF, 0xC3, 0x9B, 0x2B, 0x56, 0xAC, 0x45, 0x8A, 0x09] ++
   [0x12, 0x24, 0x48, 0x90, 0x3D, 0x7A, 0xF4, 0xF5, 0xF7, 0xF3, 0xFB, 0xEB, 0xCB, 0x8B, 0x0B, 0x16] ++
   [0x2C, 0x58, 0xB0, 0x7D, 0xFA, 0xE9, 0xCF, 0x83, 0x1B, 0x36, 0x6C, 0xD8, 0xAD, 0x47, 0x8E]

/-- LOG[0..255], as R92 lists it. -/
def logListing : List Nat :=
  [511, 0, 1, 25, 2, 50, 26, 198, 3, 223, 51, 238, 27, 104, 199, 75] ++
   [4, 100, 224, 14, 52, 141, 239, 129, 28, 193, 105, 248, 200, 8, 76, 113] ++
   [5, 138, 101, 47, 225, 36, 15, 33, 53, 147, 142, 218, 240, 18, 130, 69] ++
   [29, 181, 194, 125, 106, 39, 249, 185, 201, 154, 9, 120, 77, 228, 114, 166] ++
   [6, 191, 139, 98, 102, 221, 48, 253, 226, 152, 37, 179, 16, 145, 34, 136] ++
   [54, 208, 148, 206, 143, 150, 219, 189, 241, 210, 19, 92, 131, 56, 70, 64] ++
   [30, 66, 182, 163, 195, 72, 126, 110, 107, 58, 40, 84, 250, 133, 186, 61] ++
   [202, 94, 155, 159, 10, 21, 121, 43, 78, 212, 229, 172, 115, 243, 167, 87] ++
   [7, 112, 192, 247, 140, 128, 99, 13, 103, 74, 222, 237, 49, 197, 254, 24] ++
   [227, 165, 153, 119, 38, 184, 180, 124, 17, 68, 146, 217, 35, 32, 137, 46] ++
   [55, 63, 209, 91, 149, 188, 207, 205, 144, 135, 151, 178, 220, 252, 190, 97] ++
   [242, 86, 211, 171, 20, 42, 93, 158, 132, 60, 57, 83, 71, 109, 65, 162] ++
   [31, 45, 67, 216, 183, 123, 164, 118, 196, 23, 73, 236, 127, 12, 111, 246] ++
   [108, 161, 59, 82, 41, 157, 85, 170, 251, 96, 134, 177, 187, 204, 62, 90] ++
   [203, 89, 95, 176, 156, 169, 160, 81, 11, 245, 22, 235, 122, 117, 44, 215] ++
   [79, 174, 213, 233, 230, 231, 173, 232, 116, 214, 244, 234, 168, 80, 88, 175]

/-- INV(1..255), as R112 lists it, with 0 where the table has no entry. -/
def invListing : List Nat :=
  [0, 0x01, 0x8E, 0xF4, 0x47, 0xA7, 0x7A, 0xBA, 0xAD, 0x9D, 0xDD, 0x98, 0x3D, 0xAA, 0x5D, 0x96] ++
   [0xD8, 0x72, 0xC0, 0x58, 0xE0, 0x3E, 0x4C, 0x66, 0x90, 0xDE, 0x55, 0x80, 0xA0, 0x83, 0x4B, 0x2A] ++
   [0x6C, 0xED, 0x39, 0x51, 0x60, 0x56, 0x2C, 0x8A, 0x70, 0xD0, 0x1F, 0x4A, 0x26, 0x8B, 0x33, 0x6E] ++
   [0x48, 0x89, 0x6F, 0x2E, 0xA4, 0xC3, 0x40, 0x5E, 0x50, 0x22, 0xCF, 0xA9, 0xAB, 0x0C, 0x15, 0xE1] ++
   [0x36, 0x5F, 0xF8, 0xD5, 0x92, 0x4E, 0xA6, 0x04, 0x30, 0x88, 0x2B, 0x1E, 0x16, 0x67, 0x45, 0x93] ++
   [0x38, 0x23, 0x68, 0x8C, 0x81, 0x1A, 0x25, 0x61, 0x13, 0xC1, 0xCB, 0x63, 0x97, 0x0E, 0x37, 0x41] ++
   [0x24, 0x57, 0xCA, 0x5B, 0xB9, 0xC4, 0x17, 0x4D, 0x52, 0x8D, 0xEF, 0xB3, 0x20, 0xEC, 0x2F, 0x32] ++
   [0x28, 0xD1, 0x11, 0xD9, 0xE9, 0xFB, 0xDA, 0x79, 0xDB, 0x77, 0x06, 0xBB, 0x84, 0xCD, 0xFE, 0xFC] ++
   [0x1B, 0x54, 0xA1, 0x1D, 0x7C, 0xCC, 0xE4, 0xB0, 0x49, 0x31, 0x27, 0x2D, 0x53, 0x69, 0x02, 0xF5] ++
   [0x18, 0xDF, 0x44, 0x4F, 0x9B, 0xBC, 0x0F, 0x5C, 0x0B, 0xDC, 0xBD, 0x94, 0xAC, 0x09, 0xC7, 0xA2] ++
   [0x1C, 0x82, 0x9F, 0xC6, 0x34, 0xC2, 0x46, 0x05, 0xCE, 0x3B, 0x0D, 0x3C, 0x9C, 0x08, 0xBE, 0xB7] ++
   [0x87, 0xE5, 0xEE, 0x6B, 0xEB, 0xF2, 0xBF, 0xAF, 0xC5, 0x64, 0x07, 0x7B, 0x95, 0x9A, 0xAE, 0xB6] ++
   [0x12, 0x59, 0xA5, 0x35, 0x65, 0xB8, 0xA3, 0x9E, 0xD2, 0xF7, 0x62, 0x5A, 0x85, 0x7D, 0xA8, 0x3A] ++
   [0x29, 0x71, 0xC8, 0xF6, 0xF9, 0x43, 0xD7, 0xD6, 0x10, 0x73, 0x76, 0x78, 0x99, 0x0A, 0x19, 0x91] ++
   [0x14, 0x3F, 0xE6, 0xF0, 0x86, 0xB1, 0xE2, 0xF1, 0xFA, 0x74, 0xF3, 0xB4, 0x6D, 0x21, 0xB2, 0x6A] ++
   [0xE3, 0xE7, 0xB5, 0xEA, 0x03, 0x8F, 0xD3, 0xC9, 0x42, 0xD4, 0xE8, 0x75, 0x7F, 0xFF, 0x7E, 0xFD]

theorem test_exp_listing : (List.range 255).map (fun i => (expEntry i).toNat) = expListing := by decide +kernel

theorem test_log_listing :
    (List.range 256).map (fun v => (logEntry (BitVec.ofNat 8 v)).toNat) = logListing := by decide +kernel

theorem test_inv_listing :
    (List.range 255).map (fun k => (Rule.inverse (BitVec.ofNat 8 (k + 1))).toNat) = invListing.drop 1 := by
  decide +kernel

/-! ### States of an instance with LANES = 4, as in 95_test_vectors.md -/

/-- The instance of the spec's vectors. -/
def four : Config := ⟨2⟩

/-- Completed tables, the vectors latched, nothing in the block. -/
def idle (a b : List Byte) : State :=
  { State.resetOf four with log := logGen, exp := expGen, initDone := true, tblOk := true, latchA := a, latchB := b }

/-- A command accepted. -/
def busyWith (w : CmdWord) (a b : List Byte) : State := { idle a b with latchW := w, busy := true }

/-- A response waiting. -/
def waiting : State := (idle [1, 0, 0, 0] [0, 0, 0, 0]).respondScalar .ok 5 false

/-- The response that a result carries. -/
def responseOf : Result State → Option Response
  | .next t => t.response
  | .fault _ => none
  | .refused _ => none

/-! ### Commands: 95_test_vectors.md Families 1 to 8 -/

theorem test_mul_source_scenario :
    responseOf (exec .mul (idle [5, 0, 0, 0] [60, 0, 0, 0])) =
      some ⟨.ok, [0xCC, 0, 0, 0], [false, true, true, true]⟩ := by decide +kernel
theorem test_mul_largest_index :
    responseOf (exec .mul (idle [0x8E, 9, 9, 9] [0x8E, 9, 9, 9])) =
      some ⟨.ok, [0x47, 0, 0, 0], [false, true, true, true]⟩ := by decide +kernel
theorem test_div_largest_index :
    responseOf (exec .div (idle [0x8E, 0, 0, 0] [1, 0, 0, 0])) =
      some ⟨.ok, [0x8E, 0, 0, 0], [false, true, true, true]⟩ := by decide +kernel
theorem test_div_zero_by_zero :
    responseOf (exec .div (idle [0, 0, 0, 0] [0, 1, 1, 1])) =
      some ⟨.div0, [0, 0, 0, 0], [true, true, true, true]⟩ := by decide +kernel
theorem test_inv_not_the_aes_field :
    responseOf (exec .inv (idle [0x53, 0, 0, 0] [7, 7, 7, 7])) =
      some ⟨.ok, [0x8C, 0, 0, 0], [false, true, true, true]⟩ := by decide +kernel
theorem test_inv_zero :
    responseOf (exec .inv (idle [0, 1, 1, 1] [1, 1, 1, 1])) =
      some ⟨.inv0, [0, 0, 0, 0], [true, true, true, true]⟩ := by decide +kernel
theorem test_pow_high_exponent_bit :
    responseOf (exec .pow (idle [7, 0, 0, 0] [128, 0, 0, 0])) =
      some ⟨.ok, [0x86, 0, 0, 0], [false, true, true, true]⟩ := by decide +kernel
theorem test_pow_zero_to_the_zero :
    responseOf (exec .pow (idle [0, 0, 0, 0] [0, 0, 0, 0])) =
      some ⟨.ok, [1, 0, 0, 0], [false, true, true, true]⟩ := by decide +kernel
theorem test_vmul_family_six :
    responseOf (exec .vmul (idle [5, 0, 0x8E, 0xFF] [60, 7, 0x8E, 0xFF])) =
      some ⟨.ok, [0xCC, 0x00, 0x47, 0xE2], [false, false, false, false]⟩ := by decide +kernel
theorem test_vmul_zero_times_zero :
    responseOf (exec .vmul (idle [0, 0, 1, 2] [0, 9, 0x53, 0x80])) =
      some ⟨.ok, [0x00, 0x00, 0x53, 0x1D], [false, false, false, false]⟩ := by decide +kernel
theorem test_vdiv_zero_dividend :
    responseOf (exec .vdiv (idle [204, 0, 0x8E, 1] [5, 9, 1, 0x8E])) =
      some ⟨.ok, [0x3C, 0x00, 0x8E, 0x02], [false, false, false, false]⟩ := by decide +kernel
theorem test_vdiv_batch_failure :
    responseOf (exec .vdiv (idle [1, 2, 3, 4] [1, 0, 1, 1])) =
      some ⟨.div0, [0, 0, 0, 0], [true, true, true, true]⟩ := by decide +kernel
theorem test_vinv_one_zero_lane :
    responseOf (exec .vinv (idle [1, 0, 2, 0x8E] [9, 9, 9, 9])) =
      some ⟨.inv0, [0x01, 0x00, 0x8E, 0x02], [false, true, false, false]⟩ := by decide +kernel
theorem test_vinv_no_zero_lane :
    responseOf (exec .vinv (idle [1, 2, 3, 0xFF] [0, 0, 0, 0])) =
      some ⟨.ok, [0x01, 0x8E, 0xF4, 0xFD], [false, false, false, false]⟩ := by decide +kernel
theorem test_logrd_sentinel :
    responseOf (exec .logrd (idle [0, 5, 5, 5] [5, 5, 5, 5])) =
      some ⟨.ok, [0xFF, 0, 0, 0], [false, true, true, true]⟩ := by decide +kernel
theorem test_logrd_three :
    responseOf (exec .logrd (idle [3, 0, 0, 0] [0, 0, 0, 0])) =
      some ⟨.ok, [0x19, 0, 0, 0], [false, true, true, true]⟩ := by decide +kernel
theorem test_exprd_last_periodic_entry :
    responseOf (exec (.exprd 509) (idle [0, 0, 0, 0] [0, 0, 0, 0])) =
      some ⟨.ok, [0x8E, 0, 0, 0], [false, true, true, true]⟩ := by decide +kernel
theorem test_exprd_zero_region :
    responseOf (exec (.exprd 510) (idle [0, 0, 0, 0] [0, 0, 0, 0])) =
      some ⟨.ok, [0, 0, 0, 0], [false, true, true, true]⟩ := by decide +kernel

/-! ### Steps, registers and buses: 95_test_vectors.md Families 9 and 10, Part 3 -/

theorem test_step_reserved_word_beats_zero_divisor :
    responseOf (step (busyWith 0x0012 [0, 0, 0, 0] [0, 0, 0, 0])) =
      some ⟨.illegal, [0, 0, 0, 0], [true, true, true, true]⟩ := by decide +kernel
theorem test_step_runs_the_placed_word :
    responseOf (step (State.reset.withFetchWord 16 0x0FF9)) =
      some ⟨.ok, 1 :: List.replicate 15 0, false :: List.replicate 15 true⟩ := by decide +kernel
theorem test_status_after_generation : (idle [] []).statusReg = 0x03#8 ∧ (idle [] []).paramReg = 0x02#8 := by
  decide +kernel
theorem test_status_at_reset : State.reset.statusReg = 0x00#8 ∧ State.reset.paramReg = 0x04#8 := by decide +kernel
theorem test_bus_order : busOfLanes [5, 0, 0x8E, 0xFF] = 0xFF8E0005#512 := by decide +kernel
theorem test_lanes_of_bus : lanesOfBus 4 0x028E0001#512 = [1, 0, 0x8E, 2] := by decide +kernel
theorem test_absent_order : busOfBits [false, true, false, false] = 0b0010#64 := by decide +kernel
theorem test_xtime_first_reduction : xtime 0x80 = 0x1D := by decide
theorem test_generator_element : power 1 = Config.gen := by decide
theorem test_gmul_oracle : gmul 0x53 0xCA = 0x8F := by decide +kernel
theorem test_square_multiply_oracle : squareMultiply 0x53 3 = 0xD0 := by decide +kernel

/-! ### The assembler: 30_encoding.md R68, R70; 95_test_vectors.md P3 -/

theorem test_assemble_vector_line :
    assemble 4 (.vmul [5, 0, 0x8E, 0xFF] [60, 7, 0x8E, 0xFF]) = some ⟨0x0005, 0xFF8E0005, 0xFF8E073C⟩ := by
  decide +kernel
theorem test_text_exprd_with_comment :
    assembleText 4 ['E', 'X', 'P', 'R', 'D', ' ', '2', '5', '5', ' ', ';', ' ', 'p'] = some ⟨0x0FF9, 0, 0⟩ := by
  decide +kernel
theorem test_text_vector_hex :
    parseLine ['V', 'i', 'n', 'v', ' ', '[', '1', ',', ' ', '0', 'x', '8', 'E', ']'] = .line (.vinv [1, 0x8E]) := by
  decide +kernel

/-! ### Witnesses: for every statement with hypotheses, a state and operands that meet them -/

theorem idle_inv (a b : List Byte) (ha : a.length = four.lanes) (hb : b.length = four.lanes) : (idle a b).Inv := by
  constructor <;> simp [idle, State.resetOf, State.lanes, ha, hb]

theorem busy_inv (w : CmdWord) (a b : List Byte) (ha : a.length = four.lanes) (hb : b.length = four.lanes) :
    (busyWith w a b).Inv := by
  constructor <;> simp [busyWith, idle, State.resetOf, State.lanes, ha, hb]

theorem waiting_inv : waiting.Inv := by
  constructor
  case absent_zero =>
    intro l h
    cases l with
    | zero => simp [waiting] at h
    | succ l => simp [waiting]
  all_goals simp [waiting, idle, State.resetOf, State.lanes, four, Config.lanes]

theorem idle_ready (a b : List Byte) : (idle a b).TablesReady := ⟨by simp [idle], by simp [idle], by simp [idle]⟩

theorem witness_DecodeInvertsEncode :
    Instr.mul.wellFormed = true ∧ (Instr.exprd 0).wellFormed = true ∧ (Instr.exprd 1023).wellFormed = true := by decide
theorem witness_EncodeInvertsDecode :
    decode 0x0008#16 = .command .logrd ∧ decode 0x3FF9#16 = .command (.exprd 1023) := by decide
theorem witness_ReservedWordsAnswerIllegal :
    decode 0xFFFF#16 = .illegal .reservedBits ∧ (busyWith 0xFFFF [1, 2, 3, 4] []).latchW = 0xFFFF ∧
    (busyWith 0xFFFF [1, 2, 3, 4] []).initDone = true ∧ (busyWith 0xFFFF [1, 2, 3, 4] []).busy = true ∧
    (busyWith 0xFFFF [1, 2, 3, 4] []).edge.rst = false ∧ (busyWith 0xFFFF [1, 2, 3, 4] []).edge.unitTurn = true := by
  decide
theorem witness_AssemblerEmitsTheCommand :
    4 ≤ 64 ∧ (assemble 1 (.vmul [255] [0])).isSome = true ∧ (assemble 1 (.vdiv [255] [0])).isSome = true ∧
    (assemble 2 (.vinv [0, 255])).isSome = true := by decide
theorem witness_PowersEnumerateNonzeroBytes : (0 : Nat) < 255 ∧ 254 < 255 ∧ 0 < 1 ∧ (0xFF#8 : Byte) ≠ 0 := by decide
theorem witness_GeneratedTableInvariants :
    (1#8 : Byte) ≠ 0 ∧ 254 ≤ 254 ∧ 509 ≤ 509 ∧ 510 ≤ 510 ∧ 510 ≤ 1023 ∧ 1023 ≤ 1023 := by decide
theorem witness_ReducedStepGivesTheSameTable : 1 ≤ 1 ∧ 1 ≤ 254 ∧ 254 ≤ 254 := by decide
theorem witness_GenerateStepCompletesTables :
    State.reset.initDone = false ∧ State.reset.edge.rst = false ∧ State.reset.edge.unitTurn = true ∧
    State.reset.busy = false ∧ State.reset.rspValid = false ∧
    step State.reset = .next State.reset.popEdge.generateStep := by
  refine ⟨rfl, rfl, rfl, rfl, rfl, ?_⟩
  simp [step, State.clockEdge, State.reset, State.resetOf, State.edge, Edge.quiet, State.popEdge]

/-- A waiting response, and rst asserted at the next edge. -/
def resetting : State := { waiting with inputs := [Edge.assertReset] }

theorem witness_GenerationIsDeterministic :
    ∃ s₁ s₂, resetting.edge.rst = true ∧ step resetting = .next s₁ ∧ s₁.edge.rst = false ∧
      s₁.edge.unitTurn = true ∧ step s₁ = .next s₂ :=
  ⟨resetting.popEdge.resetStep, resetting.popEdge.resetStep.popEdge.generateStep, rfl, rfl, rfl, rfl, by
    simp [step, State.clockEdge, show resetting.popEdge.resetStep.edge = Edge.quiet from rfl, Edge.quiet]⟩
theorem witness_TablesAreReadOnly :
    waiting.initDone = true ∧ waiting.edge.rst = false ∧ step waiting = .next waiting.popEdge ∧
    (busyWith 0 [] []).edge.rst = false ∧ step (busyWith 0 [] []) = .next ((busyWith 0 [] []).popEdge.raise .illegal) :=
  ⟨rfl, rfl, rfl, rfl, rfl⟩

/-- A latched MUL over tables with nothing listed: no run reaches it. -/
def noTables : State := { busyWith 0x0001 [1, 0, 0, 0] [1, 0, 0, 0] with log := [], exp := [] }

/-- A latched DIV over LOG entries that no generator writes: no run reaches it. -/
def oddTables : State :=
  { busyWith 0x0002 [1, 0, 0, 0] [2, 0, 0, 0] with log := [(1, 0), (2, 511)], exp := [] }

theorem witness_GeneratorProgressIsHidden :
    step waiting = .next waiting.popEdge ∧ step oddTables = .fault .expIndexOutside ∧
    step noTables = .refused .tablesNotGenerated := ⟨rfl, rfl, rfl⟩
theorem witness_ResetEdgeResetsTheBlock : resetting.edge.rst = true ∧ resetting.rspValid = true := ⟨rfl, rfl⟩
theorem witness_CommandAcceptance :
    (idle [] []).cmdReady (Edge.offer ⟨1, 0, 0⟩).rst = true ∧ (Edge.offer ⟨1, 0, 0⟩).cmdValid = true ∧
    (State.reset.cmdReady (Edge.offer ⟨1, 0, 0⟩).rst && (Edge.offer ⟨1, 0, 0⟩).cmdValid) = false ∧
    ((idle [] []).cmdReady Edge.quiet.rst && Edge.quiet.cmdValid) = false ∧ waiting.cmdReady false = false :=
  ⟨rfl, rfl, rfl, rfl, rfl⟩
/-- An edge at which the unit has no turn and the host does nothing. -/
def noTurn : Edge := { Edge.quiet with unitTurn := false }

theorem witness_CommandHeldWhileNotReady :
    (State.reset.edge.rst = false ∧ State.reset.cmdReady false = false ∧
      step State.reset = .next State.reset.popEdge.generateStep) ∧
    (waiting.cmdReady false = false ∧ step waiting = .next waiting.popEdge) ∧
    ({ busyWith 0x0001 [] [] with inputs := [noTurn] }.edge.unitTurn = false ∧
      { busyWith 0x0001 [] [] with inputs := [noTurn] }.edge.rst = false) ∧
    ({ State.reset with inputs := [noTurn] }.edge.unitTurn = false ∧
      { State.reset with inputs := [noTurn] }.edge.rst = false) ∧
    ((idle [] []).cmdReady false = true ∧ (idle [] []).edge.rst = false ∧ (idle [] []).edge.cmdValid = false) :=
  ⟨⟨rfl, rfl, witness_GenerateStepCompletesTables.2.2.2.2.2⟩, ⟨rfl, rfl⟩, ⟨rfl, rfl⟩, ⟨rfl, rfl⟩, rfl, rfl, rfl⟩
theorem witness_ResponseHeldUntilAccepted : waiting.Inv ∧ waiting.rspValid = true ∧ waiting.edge.rst = false :=
  ⟨waiting_inv, rfl, rfl⟩
theorem witness_ParamRegisterIsConstant : step resetting = .next resetting.popEdge.resetStep := rfl
theorem witness_LaneOrderOnBuses :
    [(1#8 : Byte)].length ≤ 64 ∧ 0 < [(1#8 : Byte)].length ∧ (List.replicate 64 (1#8 : Byte)).length ≤ 64 ∧
    63 < (List.replicate 64 (1#8 : Byte)).length ∧ 63 < 64 ∧ [true].length ≤ 64 ∧ 0 < [true].length ∧
    waiting.Inv ∧ 0 < waiting.lanes ∧ 3 < waiting.lanes :=
  ⟨by decide, by decide, by decide, by decide, by decide, by decide, by decide, waiting_inv, by decide, by decide⟩

/-- The witness of MulResult, MulLookupNeedsNoZeroCheck, MulIsTheFieldProduct, PowResult, PowIsSquareAndMultiply and
VmulResult, LogrdResult: they ask for completed tables alone. -/
theorem witness_MulResult : (idle [5, 0, 0, 0] [60, 0, 0, 0]).TablesReady := idle_ready _ _
theorem witness_DivResult :
    (idle [0, 0, 0, 0] [0, 0, 0, 0]).TablesReady ∧ (idle [0, 0, 0, 0] [0, 0, 0, 0]).opB = 0 ∧
    (idle [7, 0, 0, 0] [1, 0, 0, 0]).opB ≠ 0 := ⟨idle_ready _ _, by decide, by decide⟩
theorem witness_DivLookupNeedsTheDivisorCheck :
    (idle [1, 0, 0, 0] [0, 0, 0, 0]).TablesReady ∧ (1#8 : Byte) ≠ 0 := ⟨idle_ready _ _, by decide⟩
theorem witness_InvResult :
    (idle [0, 1, 1, 1] [0, 0, 0, 0]).TablesReady ∧ (idle [0, 1, 1, 1] [0, 0, 0, 0]).opA = 0 ∧
    (idle [1, 0, 0, 0] [0, 0, 0, 0]).opA ≠ 0 := ⟨idle_ready _ _, by decide, by decide⟩
theorem witness_InvZeroCheckIsRequired :
    (idle [0, 1, 1, 1] [0, 0, 0, 0]).TablesReady ∧ (idle [0, 1, 1, 1] [0, 0, 0, 0]).opA = 0 :=
  ⟨idle_ready _ _, by decide⟩
theorem witness_PowZeroBaseReadsNoTable :
    (idle [0, 0, 0, 0] [9, 0, 0, 0]).initDone = true ∧ (idle [0, 0, 0, 0] [9, 0, 0, 0]).opA = 0 ∧
    1 ≤ 1 ∧ 1 ≤ 255 ∧ 255 ≤ 255 := by decide
theorem witness_InverseAndQuotientUndoTheProduct : (0xFF#8 : Byte) ≠ 0 := by decide
theorem witness_PowSmallExponents : (1#8 : Byte) ≠ 0 := by decide
theorem witness_ScalarResultConvention :
    exec .div (idle [0, 0, 0, 0] [0, 0, 0, 0]) = .next ((idle [0, 0, 0, 0] [0, 0, 0, 0]).raise .div0) ∧
    1 ≤ 3 ∧ 3 < (idle [0, 0, 0, 0] [0, 0, 0, 0]).lanes := ⟨rfl, by decide, by decide⟩
theorem witness_VmulIsMulLaneByLane :
    (idle [1, 2, 3, 4] [5, 6, 7, 8]).TablesReady ∧ 3 < (idle [1, 2, 3, 4] [5, 6, 7, 8]).lanes ∧
    (idle [4] [8]).TablesReady ∧ (idle [4] [8]).opA = (idle [1, 2, 3, 4] [5, 6, 7, 8]).laneA 3 ∧
    (idle [4] [8]).opB = (idle [1, 2, 3, 4] [5, 6, 7, 8]).laneB 3 :=
  ⟨idle_ready _ _, by decide, idle_ready _ _, by decide, by decide⟩
theorem witness_VdivResult :
    (idle [1, 2, 3, 4] [1, 1, 1, 0]).TablesReady ∧
    (3 < (idle [1, 2, 3, 4] [1, 1, 1, 0]).lanes ∧ (idle [1, 2, 3, 4] [1, 1, 1, 0]).laneB 3 = 0) ∧
    ∀ l, l < (idle [1, 2, 3, 4] [1, 1, 1, 1]).lanes → (idle [1, 2, 3, 4] [1, 1, 1, 1]).laneB l ≠ 0 :=
  ⟨idle_ready _ _, by decide, by decide⟩

/-- An instance with one lane. -/
def single : State := { idle [5] [0] with config := ⟨0⟩ }

theorem single_ready : single.TablesReady := by simp [single, State.TablesReady, idle]

theorem witness_VdivIsDivLaneByLane :
    single.TablesReady ∧ single.lanes = 1 ∧ single.laneB 0 = 0 ∧
    (idle [1, 2, 3, 4] [1, 1, 1, 1]).TablesReady ∧ (idle [4] [1]).opA = (idle [1, 2, 3, 4] [1, 1, 1, 1]).laneA 3 ∧
    (idle [4] [1]).opB = (idle [1, 2, 3, 4] [1, 1, 1, 1]).laneB 3 ∧
    ∀ l, l < (idle [1, 2, 3, 4] [1, 1, 1, 1]).lanes → (idle [1, 2, 3, 4] [1, 1, 1, 1]).laneB l ≠ 0 :=
  ⟨single_ready, by decide, by decide, idle_ready _ _, by decide, by decide, by decide⟩
theorem witness_VinvIsInvLaneByLane :
    (idle [1, 0, 2, 3] []).TablesReady ∧ (idle [0] []).TablesReady ∧
    (idle [0] []).opA = (idle [1, 0, 2, 3] []).laneA 1 ∧
    exec .inv (idle [0] []) = .next ((idle [0] []).raise .inv0) ∧ single.lanes = 1 :=
  ⟨idle_ready _ _, idle_ready _ _, by decide, rfl, by decide⟩
theorem witness_LanesAreIndependent :
    (idle [1, 2, 3, 5] [1, 1, 1, 0]).TablesReady ∧ single.TablesReady ∧
    3 < (idle [1, 2, 3, 5] [1, 1, 1, 0]).lanes ∧ 0 < single.lanes ∧
    (idle [1, 2, 3, 5] [1, 1, 1, 0]).laneA 3 = single.laneA 0 ∧
    (idle [1, 2, 3, 5] [1, 1, 1, 0]).laneB 3 = single.laneB 0 ∧
    exec .vdiv (idle [1, 2, 3, 5] [1, 1, 1, 0]) = .next ((idle [1, 2, 3, 5] [1, 1, 1, 0]).raise .div0) ∧
    exec .vdiv single = .next (single.raise .div0) :=
  ⟨idle_ready _ _, single_ready, by decide, by decide, by decide, by decide, rfl, rfl⟩
theorem witness_ExprdResult :
    (idle [] []).TablesReady ∧ 0 < 1024 ∧ 1023 < 1024 ∧ 510 ≤ 510 ∧ 510 ≤ 1023 :=
  ⟨idle_ready _ _, by decide, by decide, by decide, by decide⟩
theorem witness_UnencodableExprdIndexFaults : (idle [] []).initDone = true ∧ 1024 ≤ 1024 := by decide
theorem witness_CommandFrame :
    exec .inv (idle [0] []) = .next ((idle [0] []).raise .inv0) := rfl
theorem witness_StatusOfEachCommand :
    (idle [0] [0]).TablesReady ∧ (Instr.exprd 1023).wellFormed = true ∧ decode 0#16 = .illegal .reservedOpcode ∧
    exec .div (idle [0] [0]) = .next ((idle [0] [0]).raise .div0) ∧
    exec .pow (idle [0] [0]) = .next ((idle [0] [0]).respondScalar .ok 1 false) :=
  ⟨idle_ready _ _, by decide, by decide, rfl, rfl⟩
theorem witness_ExpIndicesStayInRange :
    (1#8 : Byte) ≠ 0 ∧ 0 ≤ 255 ∧ 255 ≤ 255 ∧ (idle [] []).TablesReady ∧ (Instr.exprd 1023).wellFormed = true :=
  ⟨by decide, by decide, by decide, idle_ready _ _, by decide⟩
theorem witness_CommandBeforeTablesIsRefused : State.reset.initDone = false := rfl
theorem witness_StepExecutesTheLatchedCommand :
    (busyWith 0x0003 [0, 1, 1, 1] []).initDone = true ∧ (busyWith 0x0003 [0, 1, 1, 1] []).busy = true ∧
    (busyWith 0x0003 [0, 1, 1, 1] []).edge.rst = false ∧ (busyWith 0x0003 [0, 1, 1, 1] []).edge.unitTurn = true ∧
    decode (busyWith 0x0003 [0, 1, 1, 1] []).latchW = .command .inv := ⟨rfl, rfl, rfl, rfl, by decide⟩
theorem witness_EveryStepKeepsTheInvariant : waiting.Inv ∧ step waiting = .next waiting.popEdge :=
  ⟨waiting_inv, rfl⟩
theorem witness_NoStepStops : waiting.Inv := waiting_inv

/-- The same command latched in a state with another history. -/
def otherHistory : State :=
  { busyWith 0x0003 [0, 1, 1, 1] [0, 0, 0, 0] with
    genProgress := 9, rspStatus := .illegal, rspData := List.replicate four.lanes 0, rspAbsent := List.replicate four.lanes true }

theorem otherHistory_inv : otherHistory.Inv := by
  constructor <;> simp [otherHistory, busyWith, idle, State.resetOf, State.lanes]
  all_goals rfl

theorem witness_ResponseDependsOnTheCommandAlone :
    (busyWith 0x0003 [0, 1, 1, 1] [0, 0, 0, 0]).Inv ∧ otherHistory.Inv ∧
    otherHistory.config = (busyWith 0x0003 [0, 1, 1, 1] [0, 0, 0, 0]).config ∧ otherHistory.initDone = true ∧
    otherHistory.busy = true ∧ otherHistory.edge.rst = false ∧ otherHistory.edge.unitTurn = true ∧
    otherHistory.latchW = (busyWith 0x0003 [0, 1, 1, 1] [0, 0, 0, 0]).latchW ∧
    otherHistory.latchA = (busyWith 0x0003 [0, 1, 1, 1] [0, 0, 0, 0]).latchA ∧
    otherHistory.latchB = (busyWith 0x0003 [0, 1, 1, 1] [0, 0, 0, 0]).latchB ∧
    step otherHistory = .next (otherHistory.popEdge.raise .inv0) ∧
    step (busyWith 0x0003 [0, 1, 1, 1] [0, 0, 0, 0]) =
      .next ((busyWith 0x0003 [0, 1, 1, 1] [0, 0, 0, 0]).popEdge.raise .inv0) :=
  ⟨busy_inv _ _ _ rfl rfl, otherHistory_inv, rfl, rfl, rfl, rfl, rfl, rfl, rfl, rfl, rfl, rfl⟩

/-- An exchange that waits before its offer, while it works and before it collects. -/
def slowExchange : Exchange :=
  ⟨[Edge.quiet], Edge.offer ⟨1, 5, 60⟩, [noTurn, noTurn], Edge.quiet, [Edge.offer ⟨2, 1, 1⟩], Edge.collect⟩

/-- A block that is ready, and the edges of a slow and of a prompt exchange. -/
def streaming : State :=
  { idle [0, 0, 0, 0] [0, 0, 0, 0] with inputs := slowExchange.edges ++ (Exchange.prompt ⟨0, 0, 0⟩).edges }

theorem streaming_inv : streaming.Inv := (idle_inv _ _ rfl rfl).withInputs _

theorem test_slow_exchange_observed :
    ((observe 7 streaming).map fun o => (o.command.word, o.response.status, o.response.data)) =
      [(1, .ok, [0xCC, 0, 0, 0])] := by decide +kernel

theorem witness_ResponsesComeInCommandOrder :
    streaming.Inv ∧ streaming.cmdReady false = true ∧
    (∀ x ∈ [slowExchange, Exchange.prompt ⟨0, 0, 0⟩], x.legal = true) ∧
    streaming.inputs = [slowExchange, Exchange.prompt ⟨0, 0, 0⟩].flatMap Exchange.edges ++ [] :=
  ⟨streaming_inv, rfl, by decide, rfl⟩

theorem witness_EveryAcceptedCommandIsAnsweredOnceInOrder :
    streaming.Inv ∧ streaming.edge.rst = false ∧ step streaming = .next streaming.popEdge ∧
    streaming.inputs.length = 10 ∧ ∀ e ∈ streaming.inputs.take 10, e.rst = false :=
  ⟨streaming_inv, rfl, rfl, rfl, by decide⟩

end Sys2Proof.Tests
end

section
/-! PROOF. The powers of the generator element run through the nonzero bytes, so the check of the generated EXP
passes (10_state.md R26; 40_table_gen.md R83). -/

namespace Sys2Proof.Machine

/-- The step back from `xtime v` to v: bit 0 of `xtime v` is the bit that the doubling shifted out. -/
def xtimeUndo (w : Byte) : Byte := if w.getLsbD 0 then ((w ^^^ 0x1D#8) >>> 1) ||| 0x80#8 else w >>> 1

theorem xtimeUndo_xtime : Function.LeftInverse xtimeUndo xtime := by
  unfold Function.LeftInverse
  decide +kernel

theorem xtime_injective : Function.Injective xtime := xtimeUndo_xtime.injective

theorem power_ne_zero (i : Nat) : power i ≠ 0 := by
  induction i with
  | zero => decide
  | succ i ih => exact fun h => ih (xtime_injective (h.trans (by decide : (0 : Byte) = xtime 0)))

/-- Equal powers stay equal when the same number of doublings is taken back. -/
theorem power_add_cancel (i d : Nat) (h : power (i + d) = power i) : power d = 1 := by
  induction i with
  | zero => simpa using h
  | succ i ih =>
    rw [Nat.add_right_comm] at h
    exact ih (xtime_injective h)

/-- No power of the generator element before the 255th is 1 again. -/
theorem power_ne_one : ∀ d < 255, 0 < d → power d ≠ 1 := by decide +kernel

theorem power_ne_power_of_lt {i j : Nat} (hij : i < j) (hj : j < 255) : power i ≠ power j := fun h => by
  obtain ⟨d, rfl⟩ := Nat.exists_eq_add_of_lt hij
  exact power_ne_one (d + 1) (by omega) (by omega) (power_add_cancel i (d + 1) h.symm)

/-- As numbers, the 255 powers are 1..255 in some order. -/
theorem powers_perm : ((List.range 255).map fun i => (power i).toNat).Perm (List.range' 1 255) := by
  have hnodup : ((List.range 255).map fun i => (power i).toNat).Nodup := by
    rw [List.nodup_map_iff_inj_on List.nodup_range]
    intro i hi j hj h
    rw [List.mem_range] at hi hj
    rcases lt_trichotomy i j with hij | hij | hij
    · exact absurd (BitVec.eq_of_toNat_eq h) (power_ne_power_of_lt hij hj)
    · exact hij
    · exact absurd (BitVec.eq_of_toNat_eq h).symm (power_ne_power_of_lt hij hi)
  refine (hnodup.subperm fun n hn => ?_).perm_of_length_le (by simp)
  obtain ⟨i, -, rfl⟩ := List.mem_map.1 hn
  have hpos : (power i).toNat ≠ 0 := fun h => power_ne_zero i (BitVec.eq_of_toNat_eq h)
  have hlt := (power i).isLt
  rw [List.mem_range'_1]
  omega

/-- The entries the check reads are the powers. -/
theorem filterMap_expGen_read? : (List.range 255).filterMap (Memory.read? expGen) = (List.range 255).map power := by
  rw [← List.filterMap_eq_map]
  refine List.filterMap_congr fun i hi => ?_
  rw [List.mem_range] at hi
  rw [expGen_read?, if_pos (by omega), expEntry_of_le i (by omega)]
  rfl

/-- TBL_OK's check of EXP_GEN passes (10_state.md R26). -/
@[simp] theorem tableCheck_expGen : tableCheck expGen = true := by
  simp only [tableCheck, filterMap_expGen_read?, List.map_map, List.all_eq_true, List.mem_range, beq_iff_eq]
  intro k hk
  calc List.count (k + 1) ((List.range 255).map (BitVec.toNat ∘ power))
      = List.count (k + 1) (List.range' 1 255) := powers_perm.count_eq _
    _ = 1 := List.count_eq_one_of_mem List.nodup_range' (by rw [List.mem_range'_1]; omega)

end Sys2Proof.Machine
end

section
/-! PROOF. What the steps of 10_state.md R36 leave unchanged, what a command reads and writes (R37), and one edge in
the cases that the statements name. -/

namespace Sys2Proof.Machine

open State

/-! ### One edge -/

/-- The Generate step is taken. -/
theorem step_generate {s : State} (hi : s.initDone = false) (hr : s.edge.rst = false) (ht : s.edge.unitTurn = true) :
    step s = .next s.popEdge.generateStep := by
  simp [step, clockEdge, hi, hr, ht]

/-- The Execute step is taken. -/
theorem step_execute {s : State} (hi : s.initDone = true) (hb : s.busy = true) (hr : s.edge.rst = false)
    (ht : s.edge.unitTurn = true) : step s = s.popEdge.executeStep := by
  simp [step, clockEdge, hi, hb, hr, ht]

/-- A latched word that decodes runs its command. -/
theorem executeStep_of_decode {s : State} {i : Instr} (h : decode s.latchW = .command i) :
    s.executeStep = exec i s := by
  simp [executeStep, h]

/-! ### What no step, and what no step after INIT_DONE, changes -/

/-- No step changes the block's parameter (10_state.md R33). -/
theorem step_config {s t : State} (h : step s = .next t) : t.config = s.config := by
  rcases clockEdge_cases h with ⟨-, rfl⟩ | ⟨-, -, ⟨-, rfl⟩ | ⟨-, rfl⟩⟩ | ⟨-, -, -, ⟨-, hx⟩ | ⟨-, rfl⟩⟩ |
    ⟨-, -, -, -, ⟨-, rfl⟩ | ⟨-, rfl⟩⟩ | ⟨-, -, -, -, ⟨-, rfl⟩ | ⟨-, rfl⟩⟩
  case inr.inr.inl.inl =>
    obtain ⟨st, d, m, rfl, -⟩ := executeStep_responds hx
    simp
  all_goals simp

/-- After INIT_DONE no step but reset writes INIT_DONE or a table (10_state.md R24). -/
theorem step_keeps_tables {s t : State} (hi : s.initDone = true) (hr : s.edge.rst = false) (h : step s = .next t) :
    t.initDone = true ∧ t.log = s.log ∧ t.exp = s.exp := by
  rcases clockEdge_cases h with ⟨hr', -⟩ | ⟨-, hi', -⟩ | ⟨-, -, -, ⟨-, hx⟩ | ⟨-, rfl⟩⟩ |
    ⟨-, -, -, -, ⟨-, rfl⟩ | ⟨-, rfl⟩⟩ | ⟨-, -, -, -, ⟨-, rfl⟩ | ⟨-, rfl⟩⟩
  case inl => simp [hr] at hr'
  case inr.inl => simp [hi] at hi'
  case inr.inr.inl.inl =>
    obtain ⟨st, d, m, rfl, -⟩ := executeStep_responds hx
    simp [hi]
  all_goals simp [hi]

/-- A LOG lookup depends on LOG alone. -/
theorem logRead_congr {s t : State} (h : t.log = s.log) (i : Byte) : t.logRead i = s.logRead i := by
  simp only [logRead, h]

/-- An EXP lookup depends on EXP alone. -/
theorem expRead_congr {s t : State} (h : t.exp = s.exp) (i : Int) : t.expRead i = s.expRead i := by
  simp only [expRead, h]

/-! ### What a command reads -/

section
variable {α β γ : Type}

/-- Sequencing is associative. -/
theorem andThen_assoc (r : Result α) (k : α → Result β) (k' : β → Result γ) :
    andThen (andThen r k) k' = andThen r fun a => andThen (k a) k' := by
  cases r <;> rfl

/-- Going on after a choice is a choice of how to go on. -/
theorem andThen_ite (p : Prop) [Decidable p] (r r' : Result α) (k : α → Result β) :
    andThen (if p then r else r') k = if p then andThen r k else andThen r' k :=
  apply_ite (andThen · k) p r r'

end

/-- Going on after a meaning is going on after its body, once INIT_DONE is 1. -/
theorem andThen_whenReady (s : State) (k : Result State) (k' : State → Result State) :
    andThen (s.whenReady k) k' = s.whenReady (andThen k k') := by
  unfold whenReady
  split <;> rfl

/-- The part of the state that a command reads: the lane count, the tables with INIT_DONE, and the latched operands; all
else as after reset. -/
def State.commandInputs (s : State) : State :=
  { resetOf s.config with
    log := s.log, exp := s.exp, initDone := s.initDone, latchA := s.latchA, latchB := s.latchB }

/-- A meaning depends on the state only through what the command reads, and all it does to the state is to write
its response there (10_state.md R36, R37). In every arm the guard, the choices and the lookups are the same on both sides
once the writing is moved behind them. -/
theorem exec_eq_respond (i : Instr) (s : State) :
    exec i s = andThen (exec i s.commandInputs) fun t => .next (s.respond t.rspStatus t.rspData t.rspAbsent) := by
  cases i <;>
    simp only [exec, execMul, execDiv, execInv, execPow, execVmul, execVdiv, execVinv, execLogrd, execExprd,
      andThen_whenReady, andThen_ite, andThen_assoc, andThen_next] <;>
    rfl

end Sys2Proof.Machine
end

section
/-! PROOF. The generator's progress (10_state.md R25; log 7) goes along with a step and is read by none. -/

namespace Sys2Proof.Machine

open State

/-- `s` with another progress count. -/
def State.withProgress (s : State) (n : Nat) : State := { s with genProgress := n }

@[simp] theorem withProgress_initDone (s : State) (n : Nat) : (s.withProgress n).initDone = s.initDone := rfl
@[simp] theorem withProgress_busy (s : State) (n : Nat) : (s.withProgress n).busy = s.busy := rfl
@[simp] theorem withProgress_latchW (s : State) (n : Nat) : (s.withProgress n).latchW = s.latchW := rfl
@[simp] theorem withProgress_rspValid (s : State) (n : Nat) : (s.withProgress n).rspValid = s.rspValid := rfl

/-! Reset clears the count, the generator's two steps count up, and the host's two steps keep it. -/

@[simp] theorem resetStep_withProgress (s : State) (n : Nat) :
    (s.withProgress n).resetStep = s.resetStep.withProgress 0 := rfl

@[simp] theorem generateStep_withProgress (s : State) (n : Nat) :
    (s.withProgress n).generateStep = s.generateStep.withProgress (n + 1) := by
  simp only [generateStep, withProgress]

@[simp] theorem generatingStep_withProgress (s : State) (n : Nat) :
    (s.withProgress n).generatingStep = s.generatingStep.withProgress (n + 1) := rfl

@[simp] theorem consumeStep_withProgress (s : State) (n : Nat) :
    (s.withProgress n).consumeStep = s.consumeStep.withProgress n := rfl

@[simp] theorem acceptStep_withProgress (s : State) (n : Nat) (c : Command) :
    (s.withProgress n).acceptStep c = (s.acceptStep c).withProgress n := rfl

/-- A meaning keeps the count: it is no input of a command, and a response does not write it. -/
theorem exec_withProgress (i : Instr) (s : State) (n : Nat) :
    exec i (s.withProgress n) = andThen (exec i s) fun t => .next (t.withProgress n) := by
  rw [exec_eq_respond i s, exec_eq_respond i (s.withProgress n), andThen_assoc]
  rfl

theorem executeStep_withProgress (s : State) (n : Nat) :
    (s.withProgress n).executeStep = andThen s.executeStep fun t => .next (t.withProgress n) := by
  simp only [executeStep, withProgress_latchW]
  cases decode s.latchW with
  | command i => exact exec_withProgress i s n
  | illegal why => rfl

/-- An edge does the same whatever the count is, up to the count after it. -/
theorem clockEdge_withProgress (e : Edge) (s : State) (n : Nat) :
    ∃ m, clockEdge e (s.withProgress n) = andThen (clockEdge e s) fun t => .next (t.withProgress m) := by
  by_cases hr : e.rst = true
  · exact ⟨0, by simp [clockEdge, hr]⟩
  · by_cases hi : s.initDone = true
    · refine ⟨n, ?_⟩
      cases hb : s.busy with
      | true => simp [clockEdge, hr, hi, hb, andThen_ite, executeStep_withProgress]
      | false => cases hv : s.rspValid <;> simp [clockEdge, hr, hi, hb, hv, andThen_ite]
    · exact ⟨n + 1, by simp [clockEdge, hr, hi, andThen_ite]⟩

theorem step_withProgress (s : State) (n : Nat) :
    ∃ m, step (s.withProgress n) = andThen (step s) fun t => .next (t.withProgress m) :=
  clockEdge_withProgress s.edge s.popEdge n

end Sys2Proof.Machine
end

section
/-! PROOF. The invariant holds at reset and each step of 10_state.md R36 keeps it. -/

namespace Sys2Proof.Machine
namespace State

theorem inv_resetOf (c : Config) : (resetOf c).Inv := by
  constructor <;> simp [resetOf, lanes]

/-- The reset step leaves the reset state for the same lane count, with the coming edges. -/
theorem inv_resetStep (s : State) : s.resetStep.Inv := (inv_resetOf s.config).withInputs s.inputs

/-- The tables written are the generated ones, and their check passes. -/
theorem Inv.generateStep {s : State} (h : s.Inv) : s.generateStep.Inv :=
  { h with
    log_wf := by simp
    exp_wf := by simp
    tables := by simp
    waiting := by simp }

theorem Inv.generatingStep {s : State} (h : s.Inv) : s.generatingStep.Inv := { h with }

/-- Accepting needs INIT_DONE and no waiting response: then the block holds the one command latched. -/
theorem Inv.acceptStep {s : State} (h : s.Inv) (hi : s.initDone = true) (hv : s.rspValid = false) (c : Command) :
    (s.acceptStep c).Inv :=
  { h with
    latchA_lanes := by simp
    latchB_lanes := by simp
    waiting := by simp [hi]
    one_command := by simp [hv] }

theorem Inv.consumeStep {s : State} (h : s.Inv) : s.consumeStep.Inv :=
  { h with
    waiting := fun hi => ⟨(h.waiting hi).1, (h.waiting hi).2.1, rfl⟩
    one_command := by simp }

/-- Writing a response after INIT_DONE frees the latch, so there is again at most one command in the block. -/
theorem Inv.responds {s t : State} (h : s.Inv) (hi : s.initDone = true) (hr : Responds s t) : t.Inv := by
  obtain ⟨st, d, m, rfl, hd, hm, hz⟩ := hr
  exact { h with
    data_lanes := hd
    absent_lanes := hm
    waiting := by simp [hi]
    one_command := by simp
    absent_zero := hz }

/-- One edge keeps the invariant, whatever it does. -/
theorem Inv.clockEdge {e : Edge} {s t : State} (h : s.Inv) (he : clockEdge e s = .next t) : t.Inv := by
  rcases clockEdge_cases he with ⟨-, rfl⟩ | ⟨-, -, ⟨-, rfl⟩ | ⟨-, rfl⟩⟩ | ⟨-, hi, -, ⟨-, hx⟩ | ⟨-, rfl⟩⟩ |
    ⟨-, -, -, -, ⟨-, rfl⟩ | ⟨-, rfl⟩⟩ | ⟨-, hi, -, hv, ⟨-, rfl⟩ | ⟨-, rfl⟩⟩
  · exact inv_resetStep s
  · exact h.generateStep
  · exact h.generatingStep
  · exact h.responds hi (executeStep_responds hx)
  · exact h
  · exact h.consumeStep
  · exact h
  · exact h.acceptStep hi hv e.cmd
  · exact h

end State
end Sys2Proof.Machine
end

section
/-! PROOF. The statements about the state: the invariant, the frame of a step and of a command, and the registers. -/

namespace Sys2Proof.Machine

open State

/-! ### The bytes of PARAM and STATUS -/

/-- The PARAM byte of each of the seven lane counts. -/
theorem paramByte_fields : ∀ k : Fin 7,
    ((BitVec.ofNat 8 k.val).extractLsb' 0 3).toNat = k.val ∧ (BitVec.ofNat 8 k.val).extractLsb' 3 5 = 0#5 := by
  decide

/-- The bits of a byte put together from four flags. -/
theorem statusByte_fields : ∀ v b k i : Bool,
    let r : BitVec 8 := 0#4 ++ BitVec.ofBool v ++ BitVec.ofBool b ++ BitVec.ofBool k ++ BitVec.ofBool i
    r.getLsbD 0 = i ∧ r.getLsbD 1 = k ∧ r.getLsbD 2 = b ∧ r.getLsbD 3 = v ∧ r.extractLsb' 4 4 = 0#4 := by
  decide

/-! ### The statements -/

/-- Settles O55: each of the steps that an edge can take keeps the invariant. -/
theorem everyStepKeepsTheInvariant : Obligations.EveryStepKeepsTheInvariant :=
  fun _ _ h hs => h.popEdge.clockEdge hs

/-- Settles O12: the step is Generate, and its check of EXP_GEN passes. -/
theorem generateStepCompletesTables : Obligations.GenerateStepCompletesTables := by
  intro s hi hr ht
  have hstep := step_generate hi hr ht
  refine ⟨?_, fun hb hv t h => ?_⟩
  · rw [hstep, State.generateStep, tableCheck_expGen]
    rfl
  · rw [hstep] at h
    cases h
    simp [statusReg, hb, hv]

/-- Settles O14: the tables stay as they are, and a lookup reads nothing else. -/
theorem tablesAreReadOnly : Obligations.TablesAreReadOnly := by
  intro s t hi hr h
  obtain ⟨hi', hlog, hexp⟩ := step_keeps_tables hi hr h
  exact ⟨hi', hlog, hexp, logRead_congr hlog, expRead_congr hexp⟩

/-- Settles O15: the step with another count is the step, with another count in its next state; no port and nothing
the host sees reads the count. -/
theorem generatorProgressIsHidden : Obligations.GeneratorProgressIsHidden := by
  intro s n
  obtain ⟨m, hm⟩ := step_withProgress s n
  refine ⟨fun t h => ⟨m, ?_⟩, fun f h => ?_, fun q h => ?_, fun _ => rfl, rfl, rfl, rfl⟩ <;>
    rw [h] at hm <;> exact hm

/-- Settles O22: PARAM is a view of the block's parameter, which no step changes. -/
theorem paramRegisterIsConstant : Obligations.ParamRegisterIsConstant := by
  intro s
  obtain ⟨hlow, hhigh⟩ := paramByte_fields s.config.lanesLog2
  refine ⟨?_, ?_, hhigh, fun _ => rfl, fun t h => ?_⟩
  · rw [paramReg, hlow]
    omega
  · rw [paramReg, hlow]
    rfl
  · rw [paramReg, paramReg, step_config h]

/-- Settles O49: a command writes one response, and a state that differs only in the registers written offers it the
same inputs. -/
theorem commandFrame : Obligations.CommandFrame := by
  refine fun i s => ⟨fun t h => ?_, fun st d m v b => ?_⟩
  · obtain ⟨-, st, d, m, rfl, -⟩ := exec_responds h
    exact ⟨rfl, respond_logRead s st d m, respond_expRead s st d m⟩
  · exact (exec_eq_respond i _).trans (exec_eq_respond i s).symm

/-- Settles O16: each value is the one written in `State.resetOf`, and STATUS is made of flags that are 0. -/
theorem resetValues : Obligations.ResetValues :=
  ⟨rfl, rfl, fun _ => ⟨rfl, rfl, rfl, rfl, rfl, rfl, rfl, by simp [statusReg, resetOf], rfl⟩⟩

/-- Settles O21: STATUS is the byte of the four flags. -/
theorem statusRegisterFields : Obligations.StatusRegisterFields := by
  intro s
  obtain ⟨h0, h1, h2, h3, h4⟩ := statusByte_fields s.rspValid s.busy s.tblOk s.initDone
  exact ⟨h0, h1, h2, h3, h4, fun _ => rfl⟩

/-- Settles O23: the ports are the model's views by definition. -/
theorem statusCodes : Obligations.StatusCodes :=
  ⟨rfl, rfl, rfl, rfl, fun _ _ => ⟨rfl, rfl, rfl, rfl, rfl⟩⟩

/-- Settles O53: the edge takes the Execute step, which runs the decoded command. -/
theorem stepExecutesTheLatchedCommand : Obligations.StepExecutesTheLatchedCommand := by
  intro s i hi hb hr ht hd
  rw [step_execute hi hb hr ht]
  exact executeStep_of_decode hd

/-- Settles O54: the reset state for every lane count, the 16 lanes of `State.reset` among them. -/
theorem invariantHoldsAtReset : Obligations.InvariantHoldsAtReset :=
  ⟨inv_resetOf Config.reference, inv_resetOf⟩

end Sys2Proof.Machine
end

section
/-! PROOF. Along every edge the block goes on: in a state of the invariant each step answers a next state, because
every decoded command reads the completed tables inside their bounds (20_memory.md R44; 60_exceptions.md R140). An EXPRD
index that no word encodes is the one that would not be (log 15). -/

namespace Sys2Proof.Machine

open State

/-! ### The index bounds -/

/-- A logarithm is a 9-bit entry. -/
theorem logEntry_le (v : Byte) : (logEntry v).toNat ≤ 511 := Nat.le_of_lt_succ (logEntry v).isLt

/-- Every nonzero byte is a power of the generator element, so its logarithm is below the sentinel. -/
theorem logEntry_le_of_ne_zero {v : Byte} (hv : v ≠ 0) : (logEntry v).toNat ≤ 254 := by
  have hpos : v.toNat ≠ 0 := fun h => hv (BitVec.eq_of_toNat_eq h)
  have hmem : v.toNat ∈ (List.range 255).map fun i => (power i).toNat :=
    powers_perm.mem_iff.2 (List.mem_range'_1.2 (by have := v.isLt; omega))
  obtain ⟨i, hi, hpow⟩ := List.mem_map.1 hmem
  cases hfind : (List.range 255).find? fun i => power i == v with
  | none => exact absurd (BitVec.eq_of_toNat_eq hpow) (by simpa using List.find?_eq_none.1 hfind i hi)
  | some j =>
    have hj : j < 255 := List.mem_range.1 (List.mem_of_find?_eq_some hfind)
    simp only [logEntry, hv, if_false, hfind, BitVec.toNat_ofNat]
    omega

/-- The rows of the opcode table other than EXPRD's have no field to bound. -/
theorem opcodeRow_wellFormed : ∀ opc : BitVec 4, (opcodeRow opc).all Instr.wellFormed = true := by decide

/-- Only EXPRD's index needs a bound, and the IDX field gives it (30_encoding.md R60, R65). -/
theorem wellFormed_of_decode {w : CmdWord} {i : Instr} (h : decode w = .command i) : i.wellFormed = true := by
  have hrow := opcodeRow_wellFormed (opcField w)
  unfold decode at h
  split at h
  · cases h
  · split at h
    · cases h
      exact decide_eq_true (idxField w).isLt
    · split at h
      · cases h
      · rename_i i' hi
        split at h
        · cases h
          simpa [hi] using hrow
        · cases h

/-! ### Lookups and commands that answer -/

/-- A lookup that answers, followed by writing a response. -/
theorem andThen_next_exists {α β : Type} {r : Result α} (h : ∃ a, r = .next a) (k : α → β) :
    ∃ b, andThen r (fun a => .next (k a)) = .next b := by
  obtain ⟨a, rfl⟩ := h
  exact ⟨k a, rfl⟩

/-- A lookup that answers in every lane. -/
theorem forLanes_exists {α : Type} {f : Nat → Result α} {ls : List Nat} (h : ∀ l ∈ ls, ∃ a, f l = .next a) :
    ∃ vs, forLanes f ls = .next vs := by
  induction ls with
  | nil => exact ⟨[], rfl⟩
  | cons l ls ih =>
    obtain ⟨⟨a, ha⟩, hls⟩ := List.forall_mem_cons.1 h
    obtain ⟨vs, hvs⟩ := ih hls
    exact ⟨a :: vs, by simp [forLanes, ha, hvs]⟩

section
variable {s : State}

theorem productLookup_exists (h : s.TablesReady) (a b : Byte) : ∃ v, s.productLookup a b = .next v :=
  ⟨_, h.productLookup a b (by have := logEntry_le a; have := logEntry_le b; omega)⟩

/-- The divisor check keeps the index of DIV and VDIV from being negative (41_scalar.md R103). -/
theorem quotientLookup_exists (h : s.TablesReady) (a : Byte) {b : Byte} (hb : b ≠ 0) :
    ∃ v, s.quotientLookup a b = .next v := by
  have ha := logEntry_le a
  have hb := logEntry_le_of_ne_zero hb
  exact ⟨_, h.quotientLookup a b (by omega) (by omega)⟩

/-- On completed tables every well-formed command answers: its checks keep its lookups in their tables. -/
theorem exec_exists (h : s.TablesReady) {i : Instr} (hi : i.wellFormed = true) : ∃ t, exec i s = .next t := by
  cases i <;> simp only [exec, execMul, execDiv, execInv, execPow, execVmul, execVdiv, execVinv, execLogrd, execExprd,
    h.whenReady]
  case mul =>
    split
    · exact ⟨_, rfl⟩
    · exact andThen_next_exists (productLookup_exists h _ _) _
  case div =>
    split
    · exact ⟨_, rfl⟩
    · split
      · exact ⟨_, rfl⟩
      · exact andThen_next_exists (quotientLookup_exists h _ ‹_›) _
  case inv =>
    split
    · exact ⟨_, rfl⟩
    · exact andThen_next_exists ⟨_, h.inverseLookup _⟩ _
  case pow =>
    split
    · exact ⟨_, rfl⟩
    · exact andThen_next_exists ⟨_, h.powerLookup _ _⟩ _
  case vmul => exact andThen_next_exists (forLanes_exists fun l _ => productLookup_exists h _ _) _
  case vdiv =>
    split
    · exact ⟨_, rfl⟩
    · rename_i hnz
      refine andThen_next_exists (forLanes_exists fun l hl => quotientLookup_exists h _ fun hb => hnz ?_) _
      exact List.any_eq_true.2 ⟨l, hl, by simp [hb]⟩
  case vinv => exact andThen_next_exists (forLanes_exists fun l _ => ⟨_, h.inverseLookup _⟩) _
  case logrd => exact andThen_next_exists ⟨_, h.logRead _⟩ _
  case exprd idx => exact andThen_next_exists ⟨_, h.expRead idx (of_decide_eq_true hi)⟩ _

theorem executeStep_exists (h : s.TablesReady) : ∃ t, s.executeStep = .next t := by
  unfold executeStep
  split
  · exact exec_exists h (wellFormed_of_decode ‹_›)
  · exact ⟨_, rfl⟩

/-- No step stops. Every edge but an Execute answers whatever the state is; an Execute finds completed tables. -/
theorem State.Inv.step_exists (h : s.Inv) : ∃ t, step s = .next t := by
  unfold step State.clockEdge
  repeat' split
  case isFalse.isTrue.isTrue.isTrue hi _ _ => exact executeStep_exists (h.popEdge.tablesReady hi)
  all_goals exact ⟨_, rfl⟩

end

/-- Settles O48: the index is outside EXP, whatever EXP holds. -/
theorem unencodableExprdIndexFaults : Obligations.UnencodableExprdIndexFaults := by
  intro s idx hi hidx
  have hfault : s.expRead idx = .fault .expIndexOutside := by
    have hout : ¬(0 ≤ (idx : Int) ∧ (idx : Int) < 1024) := by omega
    rcases s.expRead_cases idx with ⟨_, h0, h1, -⟩ | ⟨h0, h1, -⟩ | ⟨-, h⟩
    · exact absurd ⟨h0, h1⟩ hout
    · exact absurd ⟨h0, h1⟩ hout
    · exact h
  simp [exec, execExprd, whenReady, hi, hfault]

end Sys2Proof.Machine
end

section
/-! PROOF. The handshake at one edge (20_memory.md R46, R47): what the block does when it is ready, busy or answered. -/

namespace Sys2Proof.Machine

open State

theorem cmdReady_iff {s : State} {rst : Bool} :
    s.cmdReady rst = true ↔ s.initDone = true ∧ s.busy = false ∧ s.rspValid = false ∧ rst = false := by
  simp [cmdReady, and_assoc]

theorem State.Inv.not_busy_of_rspValid {s : State} (h : s.Inv) (hv : s.rspValid = true) : s.busy = false := by
  by_contra hb
  exact h.one_command ⟨by simpa using hb, hv⟩

/-! ### The steps that an edge can take -/

section
variable {s : State}

/-- The Accept step is taken. -/
theorem step_accept (hr : s.cmdReady s.edge.rst = true) (hv : s.edge.cmdValid = true) :
    step s = .next (s.popEdge.acceptStep s.edge.cmd) := by
  obtain ⟨hi, hb, hrv, hrst⟩ := cmdReady_iff.1 hr
  simp [step, clockEdge, hi, hb, hrv, hrst, hv]

/-- A ready block waits for an offer. -/
theorem step_unoffered (hr : s.cmdReady s.edge.rst = true) (hv : s.edge.cmdValid = false) :
    step s = .next s.popEdge := by
  obtain ⟨hi, hb, hrv, hrst⟩ := cmdReady_iff.1 hr
  simp [step, clockEdge, hi, hb, hrv, hrst, hv]

/-- A busy unit waits for its turn. -/
theorem step_working (hi : s.initDone = true) (hb : s.busy = true) (hr : s.edge.rst = false)
    (ht : s.edge.unitTurn = false) : step s = .next s.popEdge := by
  simp [step, clockEdge, hi, hb, hr, ht]

/-- A response waits for the host: RSP_VALID falls when the host is ready, and else nothing changes. -/
theorem step_answered (h : s.Inv) (hv : s.rspValid = true) (hr : s.edge.rst = false) :
    step s = .next { s.popEdge with rspValid := !s.edge.rspReady } := by
  have hi := h.initDone_of_rspValid hv
  have hb := h.not_busy_of_rspValid hv
  cases hrr : s.edge.rspReady
  case true => simp [step, clockEdge, hi, hb, hv, hr, hrr, consumeStep]
  case false =>
    have hsame : s.popEdge = { s.popEdge with rspValid := true } := by rw [← hv]; rfl
    simpa [step, clockEdge, hi, hb, hv, hr, hrr] using hsame

end

/-- Two edges that differ on the command port alone, and at neither of which a command is accepted, do the same. -/
theorem clockEdge_of_not_accepting {s : State} {e e' : Edge} (hrst : e'.rst = e.rst) (hready : e'.rspReady = e.rspReady)
    (hturn : e'.unitTurn = e.unitTurn) (h : (s.cmdReady e.rst && e.cmdValid) = false)
    (h' : (s.cmdReady e.rst && e'.cmdValid) = false) : clockEdge e' s = clockEdge e s := by
  unfold clockEdge
  rw [hrst, hready, hturn]
  by_cases hr : s.cmdReady e.rst = true
  · rw [hr, Bool.true_and] at h h'
    rw [h, h']
    rfl
  · rw [cmdReady_iff] at hr
    split
    · rfl
    · split
      · split
        · rfl
        · split
          · rfl
          · simp_all
      · rfl

/-- Settles O18: an edge with cmd_valid and cmd_ready takes the Accept step, and at no other does the step read the
command port. -/
theorem commandAcceptance : Obligations.CommandAcceptance := by
  intro s e rest
  refine ⟨rfl, fun hr hv => step_accept hr hv, fun c h => ?_, fun v h => ?_⟩
  · exact clockEdge_of_not_accepting (s := { s with inputs := rest }) rfl rfl rfl h h
  · have hnot (w : Bool) : (s.cmdReady e.rst && w) = false := by rw [h, Bool.false_and]
    exact clockEdge_of_not_accepting (s := { s with inputs := rest }) rfl rfl rfl (hnot _) (hnot _)

/-- Settles O20: the one step of a waiting response. -/
theorem responseHeldUntilAccepted : Obligations.ResponseHeldUntilAccepted :=
  fun _ h hv hr => ⟨by simp [rspValidPort, hv], step_answered h hv hr⟩

end Sys2Proof.Machine
end

section
/-! PROOF. A response is a function of what the command reads (20_memory.md R50). -/

namespace Sys2Proof.Machine

open State

theorem respond_response (s : State) (st : Status) (d : List Byte) (m : List Bool) :
    (s.respond st d m).response = some ⟨st, d, m⟩ := rfl

/-- Two states that offer a command the same inputs get the same response from it. -/
theorem executeStep_response_congr {s t s' t' : State} (hw : s.latchW = t.latchW)
    (hin : s.commandInputs = t.commandInputs) (hs : s.executeStep = .next s') (ht : t.executeStep = .next t') :
    s'.response = t'.response := by
  unfold executeStep at hs ht
  rw [← hw] at ht
  cases hd : decode s.latchW with
  | command i =>
    simp only [hd, exec_eq_respond i s, exec_eq_respond i t, ← hin] at hs ht
    obtain ⟨u, hu, hs⟩ := andThen_eq_next.1 hs
    rw [hu] at ht
    cases hs
    cases ht
    rfl
  | illegal why =>
    have hlanes : s.lanes = t.lanes := congrArg (fun u => u.lanes) hin
    simp only [hd] at hs ht
    cases hs
    cases ht
    simp only [raise_eq_respond, respond_response, hlanes]

/-- Completed tables are the generated ones, so of two states with the same lane count and latched operands a command
reads the same. -/
theorem commandInputs_congr {s t : State} (hs : s.TablesReady) (ht : t.TablesReady) (hc : s.config = t.config)
    (ha : s.latchA = t.latchA) (hb : s.latchB = t.latchB) : s.commandInputs = t.commandInputs := by
  obtain ⟨hsi, hsl, hse⟩ := hs
  obtain ⟨hti, htl, hte⟩ := ht
  simp only [commandInputs, hc, hsl, hse, hsi, htl, hte, hti, ha, hb]

/-- Settles O57: both states offer the command the same inputs. -/
theorem responseDependsOnTheCommandAlone : Obligations.ResponseDependsOnTheCommandAlone := by
  intro s t s' t' hs ht hc hsi hti hsb htb hw ha hb hsr hst htr htt hs' ht'
  have hkept := step_keeps_tables hsi hsr hs'
  rw [step_execute hsi hsb hsr hst] at hs'
  rw [step_execute hti htb htr htt] at ht'
  refine ⟨executeStep_response_congr (s := s.popEdge) (t := t.popEdge) hw ?_ hs' ht', ?_, hkept.2⟩
  · exact commandInputs_congr (hs.tablesReady hsi) (ht.tablesReady hti) hc ha hb
  · obtain ⟨st, d, m, rfl, -⟩ := executeStep_responds hs'
    exact ⟨_, rfl⟩

end Sys2Proof.Machine
end

section
/-! PROOF. Conservation of commands (20_memory.md R48), at one edge and along a run. -/

namespace Sys2Proof.Machine

open State

/-! ### The command in the block, the one accepted and the one answered -/

section
variable {s : State}

theorem acceptance_of_ready (hr : s.cmdReady s.edge.rst = true) (hv : s.edge.cmdValid = true) :
    s.acceptance = some (Command.latched s.lanes s.edge.cmd) := by simp [acceptance, hr, hv]

theorem acceptance_of_unoffered (hv : s.edge.cmdValid = false) : s.acceptance = none := by simp [acceptance, hv]

theorem acceptance_of_generating (hi : s.initDone = false) : s.acceptance = none := by simp [acceptance, cmdReady, hi]

theorem acceptance_of_busy (hb : s.busy = true) : s.acceptance = none := by simp [acceptance, cmdReady, hb]

theorem acceptance_of_rspValid (hv : s.rspValid = true) : s.acceptance = none := by simp [acceptance, cmdReady, hv]

theorem observation_of_no_response (hv : s.rspValid = false) : s.observation = none := by
  simp [observation, rspValidPort, hv]

theorem observation_of_held (hr : s.edge.rspReady = false) : s.observation = none := by simp [observation, hr]

/-- The response collected is the latched command's. -/
theorem observation_of_collected (hv : s.rspValid = true) (hrst : s.edge.rst = false) (hr : s.edge.rspReady = true) :
    s.observation.map Observation.command = some s.latched := by
  simp [observation, rspValidPort, response, hv, hrst, hr]

theorem inFlight_of_free (hb : s.busy = false) (hv : s.rspValid = false) : s.inFlight = [] := by simp [inFlight, hb, hv]

theorem inFlight_of_busy (hb : s.busy = true) : s.inFlight = [s.latched] := by simp [inFlight, hb]

theorem inFlight_of_rspValid (hv : s.rspValid = true) : s.inFlight = [s.latched] := by simp [inFlight, hv]

end

@[simp] theorem popEdge_inFlight (s : State) : s.popEdge.inFlight = s.inFlight := rfl
@[simp] theorem generateStep_inFlight (s : State) : s.generateStep.inFlight = s.inFlight := rfl
@[simp] theorem generatingStep_inFlight (s : State) : s.generatingStep.inFlight = s.inFlight := rfl

/-- At one edge without reset, the command in the block and the one accepted are the one answered and the one in the
block afterwards. -/
theorem step_conserves {s t : State} (h : s.Inv) (hr : s.edge.rst = false) (hs : step s = .next t) :
    s.inFlight ++ s.acceptance.toList = (s.observation.map Observation.command).toList ++ t.inFlight := by
  have hcases := clockEdge_cases hs
  simp only [popEdge_initDone, popEdge_busy, popEdge_rspValid] at hcases
  rcases hcases with ⟨hr', -⟩ | ⟨-, hi, hgenerate⟩ | ⟨-, -, hb, hwork⟩ | ⟨-, -, hb, hv, hanswered⟩ |
    ⟨-, hi, hb, hv, hready⟩
  case inl => simp [hr] at hr'
  case inr.inl =>
    rw [acceptance_of_generating hi, observation_of_no_response (h.waiting hi).2.2]
    rcases hgenerate with ⟨-, rfl⟩ | ⟨-, rfl⟩ <;> simp
  case inr.inr.inl =>
    have hv : s.rspValid = false := Bool.eq_false_iff.2 fun hv => h.one_command ⟨hb, hv⟩
    rw [acceptance_of_busy hb, observation_of_no_response hv]
    rcases hwork with ⟨-, hx⟩ | ⟨-, rfl⟩
    · obtain ⟨st, d, m, rfl, -⟩ := executeStep_responds hx
      rw [inFlight_of_busy hb]
      rfl
    · simp
  case inr.inr.inr.inl =>
    rw [acceptance_of_rspValid hv]
    rcases hanswered with ⟨hrr, rfl⟩ | ⟨hrr, rfl⟩
    · rw [inFlight_of_rspValid hv, observation_of_collected hv hr hrr,
        inFlight_of_free (s := s.popEdge.consumeStep) hb rfl]
      rfl
    · rw [observation_of_held hrr]
      simp
  case inr.inr.inr.inr =>
    rw [observation_of_no_response hv]
    rcases hready with ⟨hcv, rfl⟩ | ⟨hcv, rfl⟩
    · rw [inFlight_of_free hb hv, acceptance_of_ready (cmdReady_iff.2 ⟨hi, hb, hv, hr⟩) hcv]
      rfl
    · rw [acceptance_of_unoffered hcv]
      simp

/-! ### A run, step by step -/

/-- Every step takes the next edge from the list. -/
theorem step_inputs {s t : State} (h : step s = .next t) : t.inputs = s.inputs.tail := by
  rcases clockEdge_cases h with ⟨-, rfl⟩ | ⟨-, -, ⟨-, rfl⟩ | ⟨-, rfl⟩⟩ | ⟨-, -, -, ⟨-, hx⟩ | ⟨-, rfl⟩⟩ |
    ⟨-, -, -, -, ⟨-, rfl⟩ | ⟨-, rfl⟩⟩ | ⟨-, -, -, -, ⟨-, rfl⟩ | ⟨-, rfl⟩⟩
  case inr.inr.inl.inl =>
    obtain ⟨st, d, m, rfl, -⟩ := executeStep_responds hx
    rfl
  all_goals rfl

theorem edge_of_cons {s : State} {e : Edge} {es : List Edge} (h : s.inputs = e :: es) : s.edge = e := by
  simp [edge, h]

/-- Where the edges of k + 1 steps do not assert rst, the first does not, nor do those of the k steps after it; at the
end of the list the host is quiet. -/
theorem rst_of_take_succ {s : State} {k : Nat} (h : ∀ e ∈ s.inputs.take (k + 1), e.rst = false) :
    s.edge.rst = false ∧ ∀ e ∈ s.inputs.tail.take k, e.rst = false := by
  cases hin : s.inputs with
  | nil => simp [edge, hin, Edge.quiet]
  | cons e es =>
    rw [hin, List.take_succ_cons, List.forall_mem_cons] at h
    rwa [edge_of_cons hin]

theorem run_succ {s t : State} (k : Nat) (h : step s = .next t) :
    Sys2Proof.core.run (k + 1) s = Sys2Proof.core.run k t := by
  have hcore : Sys2Proof.core.step s = .next t := h
  simp only [Host.Core.run, hcore]

theorem collectRun_succ {α : Type} (f : State → Option α) {s t : State} (k : Nat) (h : step s = .next t) :
    collectRun f (k + 1) s = (f s).toList ++ collectRun f k t := by
  simp only [collectRun, h]

/-- Along any run without reset the commands are conserved, and the run does not stop: the steps' equations are put
one after the other. -/
theorem run_conserves (k : Nat) {s : State} (h : s.Inv) (hr : ∀ e ∈ s.inputs.take k, e.rst = false) :
    ∃ t, Sys2Proof.core.run k s = .next t ∧
      s.inFlight ++ acceptances k s = (observe k s).map Observation.command ++ t.inFlight := by
  induction k generalizing s with
  | zero => exact ⟨s, rfl, by simp [acceptances, observe, collectRun]⟩
  | succ k ih =>
    obtain ⟨u, hu⟩ := h.step_exists
    obtain ⟨hrst, hrest⟩ := rst_of_take_succ hr
    have hstep := step_conserves h hrst hu
    rw [← step_inputs hu] at hrest
    obtain ⟨t, ht, hrun⟩ := ih (everyStepKeepsTheInvariant s u h hu) hrest
    refine ⟨t, (run_succ k hu).trans ht, ?_⟩
    rw [acceptances, observe, collectRun_succ _ k hu, collectRun_succ _ k hu]
    calc s.inFlight ++ (s.acceptance.toList ++ acceptances k u)
        = (s.observation.map Observation.command).toList ++ (u.inFlight ++ acceptances k u) := by
          rw [← List.append_assoc, hstep, List.append_assoc]
      _ = (s.observation.map Observation.command).toList ++ ((observe k u).map Observation.command ++ t.inFlight) := by
          rw [hrun]
      _ = (s.observation.toList ++ observe k u).map Observation.command ++ t.inFlight := by
          rw [List.map_append, Option.toList_map, List.append_assoc]

/-- Settles O59: conservation at one step and along a run. -/
theorem everyAcceptedCommandIsAnsweredOnceInOrder : Obligations.EveryAcceptedCommandIsAnsweredOnceInOrder :=
  ⟨fun _ _ h hr hs => step_conserves h hr hs, fun k _ h hr => run_conserves k h hr⟩

end Sys2Proof.Machine
end

section
/-! PROOF. A stream of exchanges (20_memory.md R48; 70_reset_and_hazards.md R165, R166, R170): the block passes from
ready to busy to answered and back, and accepts one command on the way. -/

namespace Sys2Proof.Machine

open State

/-- From every state of `P`, the edge `e` accepts `c` and leads to a state of `Q`. -/
def Moves (P : State → Prop) (e : Edge) (c : Option Latched) (Q : State → Prop) : Prop :=
  ∀ s, P s → s.edge = e → ∃ t, step s = .next t ∧ s.acceptance = c ∧ Q t

/-- From every state of `P` whose next edges are `es`, the run over `es` accepts the commands `cs` and ends in a state
of `Q` with the remaining edges. -/
def Passes (P : State → Prop) (es : List Edge) (cs : List Latched) (Q : State → Prop) : Prop :=
  ∀ (s : State) (rest : List Edge), P s → s.inputs = es ++ rest →
    ∃ t, Sys2Proof.core.run es.length s = .next t ∧ acceptances es.length s = cs ∧ t.inputs = rest ∧ Q t

section
variable {P Q R : State → Prop} {es : List Edge} {cs : List Latched} {e : Edge}

theorem Passes.nil : Passes P [] [] P := fun s _ hP hin => ⟨s, rfl, rfl, hin, hP⟩

/-- One edge and then others. -/
theorem Passes.cons {c : Option Latched} (hmove : Moves P e c Q) (h : Passes Q es cs R) :
    Passes P (e :: es) (c.toList ++ cs) R := by
  intro s rest hP hin
  obtain ⟨t, ht, hc, hQ⟩ := hmove s hP (edge_of_cons hin)
  obtain ⟨u, hu, hcs, hrest, hR⟩ := h t rest hQ (by rw [step_inputs ht, hin]; rfl)
  refine ⟨u, (run_succ _ ht).trans hu, ?_, hrest, hR⟩
  rw [← hc, ← hcs]
  exact collectRun_succ _ _ ht

/-- One edge that accepts nothing, and then others. -/
theorem Passes.silent (hmove : Moves P e none Q) (h : Passes Q es cs R) : Passes P (e :: es) cs R :=
  Passes.cons hmove h

/-- Any number of edges at each of which the block waits, and then others. -/
theorem Passes.wait {ws : List Edge} (hmove : ∀ e ∈ ws, Moves P e none P) (h : Passes P es cs R) :
    Passes P (ws ++ es) cs R := by
  induction ws with
  | nil => exact h
  | cons e ws ih =>
    obtain ⟨he, hws⟩ := List.forall_mem_cons.1 hmove
    exact Passes.silent he (ih hws)

end

/-! ### The three phases of a command -/

/-- A state of the invariant, with the parameter `c`, in which the flag `p` is 1. -/
def State.Phase (c : Config) (p : State → Bool) (s : State) : Prop := s.Inv ∧ s.config = c ∧ p s = true

/-- The block is ready for a command. -/
def State.Ready (c : Config) : State → Prop := Phase c fun s => s.cmdReady false

/-- A command is latched. -/
def State.Busy (c : Config) : State → Prop := Phase c State.busy

/-- A response waits. -/
def State.Answered (c : Config) : State → Prop := Phase c State.rspValid

/-- A step keeps the invariant and the parameter, so only the flag is to be shown. -/
theorem phase_of_step {c : Config} {q : State → Bool} {s t : State} {a : Option Latched}
    (hinv : s.Inv) (hc : s.config = c) (hs : step s = .next t) (ha : s.acceptance = a) (hq : q t = true) :
    ∃ t, step s = .next t ∧ s.acceptance = a ∧ Phase c q t :=
  ⟨t, hs, ha, everyStepKeepsTheInvariant s t hinv hs, (step_config hs).trans hc, hq⟩

section
variable {c : Config} {e : Edge}

theorem ready_idle (he : e.rst = false ∧ e.cmdValid = false) : Moves (Ready c) e none (Ready c) := by
  rintro s ⟨hinv, hc, hready⟩ rfl
  have hready' : s.cmdReady s.edge.rst = true := he.1 ▸ hready
  exact phase_of_step hinv hc (step_unoffered hready' he.2) (acceptance_of_unoffered he.2) hready

theorem ready_offer (he : e.rst = false ∧ e.cmdValid = true) :
    Moves (Ready c) e (some (Command.latched c.lanes e.cmd)) (Busy c) := by
  rintro s ⟨hinv, rfl, hready⟩ rfl
  rw [← he.1] at hready
  exact phase_of_step hinv rfl (step_accept hready he.2) (acceptance_of_ready hready he.2) rfl

theorem busy_work (he : e.rst = false ∧ e.unitTurn = false) : Moves (Busy c) e none (Busy c) := by
  rintro s ⟨hinv, hc, hb⟩ rfl
  exact phase_of_step hinv hc (step_working (hinv.initDone_of_busy hb) hb he.1 he.2) (acceptance_of_busy hb) hb

theorem busy_finish (he : e.rst = false ∧ e.unitTurn = true) : Moves (Busy c) e none (Answered c) := by
  rintro s ⟨hinv, hc, hb⟩ rfl
  have hi := hinv.initDone_of_busy hb
  obtain ⟨t, hx⟩ := executeStep_exists (hinv.tablesReady hi).popEdge
  have hstep : step s = .next t := (step_execute hi hb he.1 he.2).trans hx
  obtain ⟨st, d, m, rfl, -⟩ := executeStep_responds hx
  exact phase_of_step hinv hc hstep (acceptance_of_busy hb) rfl

theorem answered_hold (he : e.rst = false ∧ e.rspReady = false) : Moves (Answered c) e none (Answered c) := by
  rintro s ⟨hinv, hc, hv⟩ rfl
  exact phase_of_step hinv hc (step_answered hinv hv he.1) (acceptance_of_rspValid hv) (by simp [he.2])

theorem answered_collect (he : e.rst = false ∧ e.rspReady = true) : Moves (Answered c) e none (Ready c) := by
  rintro s ⟨hinv, hc, hv⟩ rfl
  refine phase_of_step hinv hc (step_answered hinv hv he.1) (acceptance_of_rspValid hv) (cmdReady_iff.2 ?_)
  exact ⟨hinv.initDone_of_rspValid hv, hinv.not_busy_of_rspValid hv, by simp [he.2], rfl⟩

end

/-! ### Exchanges -/

theorem Exchange.legal_iff {x : Exchange} : x.legal = true ↔
    (∀ e ∈ x.idle, e.rst = false ∧ e.cmdValid = false) ∧ (x.offer.rst = false ∧ x.offer.cmdValid = true) ∧
    (∀ e ∈ x.working, e.rst = false ∧ e.unitTurn = false) ∧ (x.finish.rst = false ∧ x.finish.unitTurn = true) ∧
    (∀ e ∈ x.held, e.rst = false ∧ e.rspReady = false) ∧ (x.collect.rst = false ∧ x.collect.rspReady = true) := by
  simp [Exchange.legal, and_assoc]

theorem Exchange.rst_of_legal {x : Exchange} (h : x.legal = true) : ∀ e ∈ x.edges, e.rst = false := by
  obtain ⟨hidle, hoffer, hworking, hfinish, hheld, hcollect⟩ := Exchange.legal_iff.1 h
  intro e he
  simp only [Exchange.edges, List.mem_append, List.mem_cons, List.not_mem_nil, or_false] at he
  rcases he with he | rfl | he | rfl | he | rfl
  · exact (hidle e he).1
  · exact hoffer.1
  · exact (hworking e he).1
  · exact hfinish.1
  · exact (hheld e he).1
  · exact hcollect.1

/-- An exchange, and then others: the block accepts the command offered and is ready again. -/
theorem Passes.exchange {c : Config} {x : Exchange} {es : List Edge} {cs : List Latched} {R : State → Prop}
    (hx : x.legal = true) (h : Passes (Ready c) es cs R) :
    Passes (Ready c) (x.edges ++ es) (Command.latched c.lanes x.offer.cmd :: cs) R := by
  obtain ⟨hidle, hoffer, hworking, hfinish, hheld, hcollect⟩ := Exchange.legal_iff.1 hx
  have hanswered : Passes (Answered c) (x.held ++ x.collect :: es) cs R :=
    Passes.wait (fun e he => answered_hold (hheld e he)) (Passes.silent (answered_collect hcollect) h)
  have hbusy : Passes (Busy c) (x.working ++ x.finish :: (x.held ++ x.collect :: es)) cs R :=
    Passes.wait (fun e he => busy_work (hworking e he)) (Passes.silent (busy_finish hfinish) hanswered)
  have hready := Passes.wait (fun e he => ready_idle (hidle e he)) (Passes.cons (ready_offer hoffer) hbusy)
  simpa [Exchange.edges] using hready

/-- A stream of exchanges: the block accepts the commands offered, in order, and is ready again. -/
theorem passes_stream {c : Config} {xs : List Exchange} (hxs : ∀ x ∈ xs, x.legal = true) :
    Passes (Ready c) (xs.flatMap Exchange.edges) (xs.map fun x => Command.latched c.lanes x.offer.cmd) (Ready c) := by
  induction xs with
  | nil => exact Passes.nil
  | cons x xs ih =>
    obtain ⟨hx, hxs⟩ := List.forall_mem_cons.1 hxs
    exact Passes.exchange hx (ih hxs)

/-- Settles O58: the block accepts the commands in order and is ready before and after, so by conservation it answers
them in that order. -/
theorem responsesComeInCommandOrder : Obligations.ResponsesComeInCommandOrder := by
  intro xs s rest hinv hready hxs hin
  obtain ⟨t, hrun, haccepted, hrest, -, -, htready⟩ := passes_stream hxs s rest ⟨hinv, rfl, hready⟩ hin
  have hrst : ∀ e ∈ s.inputs.take (xs.flatMap Exchange.edges).length, e.rst = false := by
    rw [hin, List.take_left' rfl]
    intro e he
    obtain ⟨x, hx, he⟩ := List.mem_flatMap.1 he
    exact Exchange.rst_of_legal (hxs x hx) e he
  obtain ⟨u, hrun', hconserved⟩ := run_conserves _ hinv hrst
  cases hrun.symm.trans hrun'
  obtain ⟨-, hb, hv, -⟩ := cmdReady_iff.1 hready
  obtain ⟨hti, htb, htv, -⟩ := cmdReady_iff.1 htready
  refine ⟨?_, t, hrun, htready, hrest, fun hquiet => ⟨hti, htb, htv, hrest ▸ hquiet⟩⟩
  rw [inFlight_of_free hb hv, inFlight_of_free htb htv, haccepted] at hconserved
  rw [List.nil_append, List.append_nil] at hconserved
  exact hconserved.symm

end Sys2Proof.Machine
end

section
/-! PROOF. Lanes on buses (20_memory.md R40): bit i of a packed vector is bit i mod 8 of lane i / 8. -/

namespace Sys2Proof.Machine

open State

/-- Lane 0 is in the low byte, and the other lanes follow it. -/
theorem busOfLanes_getLsbD (v : List Byte) {i : Nat} (hi : i < 512) :
    (busOfLanes v).getLsbD i = (lane v (i / 8)).getLsbD (i % 8) := by
  induction v generalizing i with
  | nil => simp [busOfLanes, lane]
  | cons v vs ih =>
    rw [busOfLanes, BitVec.getLsbD_or, BitVec.getLsbD_setWidth, BitVec.getLsbD_shiftLeft]
    by_cases h : i < 8
    · simp [hi, h, Nat.div_eq_of_lt h, Nat.mod_eq_of_lt h]
    · obtain ⟨j, rfl⟩ := Nat.exists_eq_add_of_le' (Nat.le_of_not_lt h)
      have hj := ih (i := j) (by omega)
      simp [hi, h, hj]

/-- Absent bit l belongs to lane l. -/
theorem busOfBits_getLsbD (m : List Bool) {l : Nat} (hl : l < 64) : (busOfBits m).getLsbD l = m.getD l false := by
  induction m generalizing l with
  | nil => simp [busOfBits]
  | cons b bs ih =>
    rw [busOfBits, BitVec.getLsbD_or, BitVec.getLsbD_shiftLeft]
    cases l with
    | zero => cases b <;> simp
    | succ l =>
      have hl' := ih (l := l) (by omega)
      cases b <;> simp [hl, hl']

theorem busOfLanes_extractLsb' (v : List Byte) {l : Nat} (hl : l < 64) :
    (busOfLanes v).extractLsb' (8 * l) 8 = lane v l := by
  refine BitVec.eq_of_getLsbD_eq fun i hi => ?_
  have hdiv : (8 * l + i) / 8 = l := by omega
  have hmod : (8 * l + i) % 8 = i := by omega
  rw [BitVec.getLsbD_extractLsb', busOfLanes_getLsbD v (by omega), hdiv, hmod]
  simp [hi]

theorem map_lane_range (v : List Byte) : (List.range v.length).map (lane v) = v := by
  refine List.ext_getElem (by simp) fun l _ hl => ?_
  simp [lane, hl]

/-- A packed vector is unpacked to itself. -/
theorem lanesOfBus_busOfLanes (v : List Byte) (hv : v.length ≤ 64) : lanesOfBus v.length (busOfLanes v) = v := by
  refine Eq.trans (List.map_congr_left fun l hl => ?_) (map_lane_range v)
  exact busOfLanes_extractLsb' v (Nat.lt_of_lt_of_le (List.mem_range.1 hl) hv)

/-- Settles O24: bit by bit; the ports are the registers packed, and no lane count exceeds 64. -/
theorem laneOrderOnBuses : Obligations.LaneOrderOnBuses := by
  refine ⟨fun v l hv hl => busOfLanes_extractLsb' v (by omega), fun n l b hl => lane_lanesOfBus n l b hl,
    fun m l hm hl => busOfBits_getLsbD m (by omega), lanesOfBus_busOfLanes, fun _ _ => ⟨rfl, rfl⟩,
    fun s rst l _ hl => ?_⟩
  have hl64 : l < 64 := Nat.lt_of_lt_of_le hl (Config.lanes_le s.config)
  exact ⟨busOfLanes_extractLsb' s.rspData hl64, busOfBits_getLsbD s.rspAbsent hl64⟩

end Sys2Proof.Machine
end

section
/-! PROOF. The three fields of a command word (30_encoding.md R60) determine it, so a decoded word is the encoding of its
command and the other way round (R65). The opcode map (R62) and the reserved words (R64) are read off the fields. -/

namespace Sys2Proof

open Sys2Proof.Machine

/-! ### The fields of a word -/

/-- RSV, IDX and OPC, in this order, are the whole word. -/
theorem word_eq_append_fields (w : CmdWord) : rsvField w ++ idxField w ++ opcField w = w := by
  ext k hk
  simp only [rsvField, idxField, opcField, BitVec.getElem_append, BitVec.getElem_extractLsb']
  split
  · simp [BitVec.getLsbD_eq_getElem hk]
  · split <;> rw [← BitVec.getLsbD_eq_getElem hk] <;> congr 1 <;> omega

theorem word_eq_iff_fields {w w' : CmdWord} :
    w = w' ↔ opcField w = opcField w' ∧ idxField w = idxField w' ∧ rsvField w = rsvField w' := by
  refine ⟨by rintro rfl; exact ⟨rfl, rfl, rfl⟩, fun ⟨ho, hx, hr⟩ => ?_⟩
  rw [← word_eq_append_fields w, ← word_eq_append_fields w', ho, hx, hr]

theorem opcField_and (v w : CmdWord) : opcField (v &&& w) = opcField v &&& opcField w := BitVec.extractLsb'_and

theorem idxField_and (v w : CmdWord) : idxField (v &&& w) = idxField v &&& idxField w := BitVec.extractLsb'_and

theorem rsvField_and (v w : CmdWord) : rsvField (v &&& w) = rsvField v &&& rsvField w := BitVec.extractLsb'_and

theorem encode_fields : ∀ i : Instr, Laws.EncodeFields.Statement i
  | .mul => Laws.EncodeFields.mul
  | .div => Laws.EncodeFields.div
  | .inv => Laws.EncodeFields.inv
  | .pow => Laws.EncodeFields.pow
  | .vmul => Laws.EncodeFields.vmul
  | .vdiv => Laws.EncodeFields.vdiv
  | .vinv => Laws.EncodeFields.vinv
  | .logrd => Laws.EncodeFields.logrd
  | .exprd idx => Laws.EncodeFields.exprd idx

/-- The encoder's word is the one with the command's opcode and index, and RSV = 0 (30_encoding.md R60). -/
theorem eq_encode_iff {w : CmdWord} {i : Instr} :
    w = encode i ↔ opcField w = opcodeOf i ∧ idxField w = indexOf i ∧ rsvField w = 0#2 := by
  obtain ⟨ho, hx, hr⟩ := encode_fields i
  rw [word_eq_iff_fields, ho, hx, hr]

/-! ### The decoder -/

/-- A row of the opcode table is a command with this opcode and no index. -/
theorem fields_of_opcodeRow {opc : BitVec 4} {i : Instr} (h : opcodeRow opc = some i) :
    opcodeOf i = opc ∧ indexOf i = 0#10 := by
  have hrows : ∀ opc : BitVec 4, (opcodeRow opc).all (fun i => opcodeOf i = opc ∧ indexOf i = 0#10) = true := by decide
  simpa [h] using hrows opc

/-- A branch of the decoder that answers a command has seen its three fields in the word. -/
theorem eq_encode_of_decode {w : CmdWord} {i : Instr} (h : decode w = .command i) : w = encode i := by
  unfold decode at h
  rw [eq_encode_iff]
  split at h
  · cases h
  · rename_i hr
    rw [not_not] at hr
    split at h
    · rename_i ho
      cases h
      exact ⟨ho, by simp [indexOf], hr⟩
    · split at h
      · cases h
      · rename_i i' hrow
        obtain ⟨ho, hx⟩ := fields_of_opcodeRow hrow
        split at h
        · rename_i hx0
          cases h
          exact ⟨ho.symm, hx0.trans hx.symm, hr⟩
        · cases h

/-- A well-formed command's fields select it: an index below 1024 is what 10 bits hold. -/
theorem decode_encode {i : Instr} (hi : i.wellFormed = true) : decode (encode i) = .command i := by
  obtain ⟨ho, hx, hr⟩ := encode_fields i
  cases i with
  | exprd idx =>
    have hidx : idx < 1024 := of_decide_eq_true hi
    simp [decode, ho, hx, hr, opcodeOf, indexOf, Nat.mod_eq_of_lt hidx]
  | _ => rfl

/-- The decoder inverts the encoder on well-formed commands, and answers no others. -/
theorem decode_eq_command_iff {w : CmdWord} {i : Instr} :
    decode w = .command i ↔ i.wellFormed = true ∧ w = encode i :=
  ⟨fun h => ⟨wellFormed_of_decode h, eq_encode_of_decode h⟩, by rintro ⟨hi, rfl⟩; exact decode_encode hi⟩

/-- Settles O1: the encoder writes the fields that the decoder reads. -/
theorem decodeInvertsEncode : Obligations.DecodeInvertsEncode :=
  fun _ hi => decode_encode hi

/-- Settles O2: a word that decodes has its command's fields, which are all of the word. -/
theorem encodeInvertsDecode : Obligations.EncodeInvertsDecode := by
  intro w i h
  obtain ⟨hi, rfl⟩ := decode_eq_command_iff.1 h
  exact ⟨hi, rfl⟩

/-! ### The opcode map -/

theorem decode_eq_row_iff {w : CmdWord} {i : Instr} (hi : i.wellFormed = true) :
    decode w = .command i ↔ w &&& 0xFFFF#16 = encode i := by
  have hmask : w &&& 0xFFFF#16 = w := BitVec.and_allOnes
  simp [decode_eq_command_iff, hi, hmask]

/-- EXPRD's mask keeps OPC and RSV and drops IDX. -/
theorem exprd_match_iff {w : CmdWord} :
    w &&& 0xC00F#16 = 0x0009#16 ↔ opcField w = 0x9#4 ∧ rsvField w = 0#2 := by
  have ho : opcField (w &&& 0xC00F#16) = opcField w := (opcField_and _ _).trans BitVec.and_allOnes
  have hx : idxField (w &&& 0xC00F#16) = 0#10 := (idxField_and _ _).trans BitVec.and_zero
  have hr : rsvField (w &&& 0xC00F#16) = rsvField w := (rsvField_and _ _).trans BitVec.and_allOnes
  rw [show 0x0009#16 = encode (.exprd 0) from rfl, eq_encode_iff, ho, hx, hr]
  simp [opcodeOf, indexOf]

/-- Bits 13:4 as a number. -/
theorem idxField_toNat (w : CmdWord) : (idxField w).toNat = ((w >>> 4) &&& 0x03FF#16).toNat := by
  rw [BitVec.toNat_and, idxField, BitVec.extractLsb'_toNat, BitVec.toNat_ushiftRight]
  exact (Nat.and_two_pow_sub_one_eq_mod _ 10).symm

theorem decode_eq_exprd_iff {w : CmdWord} {idx : Nat} :
    decode w = .command (.exprd idx) ↔ w &&& 0xC00F#16 = 0x0009#16 ∧ idx = (idxField w).toNat := by
  rw [decode_eq_command_iff, eq_encode_iff, exprd_match_iff]
  constructor
  · rintro ⟨hidx, ho, hx, hr⟩
    have hidx : idx < 1024 := of_decide_eq_true hidx
    exact ⟨⟨ho, hr⟩, by simp [hx, indexOf, Nat.mod_eq_of_lt hidx]⟩
  · rintro ⟨⟨ho, hr⟩, rfl⟩
    exact ⟨decide_eq_true (idxField w).isLt, ho, by simp [indexOf], hr⟩

/-- Settles O3: the match of a row is the encoding of its command, and EXPRD's mask leaves the index free. -/
theorem decodeSelectsOpcodeMapRow : Obligations.DecodeSelectsOpcodeMapRow := by
  intro w
  refine ⟨decode_eq_row_iff rfl, decode_eq_row_iff rfl, decode_eq_row_iff rfl, decode_eq_row_iff rfl,
    decode_eq_row_iff rfl, decode_eq_row_iff rfl, decode_eq_row_iff rfl, decode_eq_row_iff rfl, fun idx => ?_⟩
  rw [← idxField_toNat]
  exact decode_eq_exprd_iff

/-! ### Reserved words -/

theorem decode_eq_illegal_iff {w : CmdWord} : (∃ why, decode w = .illegal why) ↔
    rsvField w ≠ 0#2 ∨ (opcField w ≠ 0x9#4 ∧ (opcodeRow (opcField w) = none ∨ idxField w ≠ 0#10)) := by
  unfold decode
  split
  case isTrue hr => simp [hr]
  case isFalse hr =>
    split
    case isTrue ho => simp [hr, ho]
    case isFalse ho =>
      cases hrow : opcodeRow (opcField w) with
      | none => simp [ho]
      | some i => by_cases hx : idxField w = 0#10 <;> simp [hr, ho, hx]

/-- The opcodes without a row: 0x0, 0xA..0xF and EXPRD's own. -/
theorem opcodeRow_eq_none_iff : ∀ opc : BitVec 4,
    opcodeRow opc = none ↔ opc = 0x9#4 ∨ opc = 0x0#4 ∨ 10 ≤ opc.toNat := by decide

/-- Bits 15:4 are RSV and IDX. -/
theorem upperBits_eq_zero_iff (w : CmdWord) :
    w.extractLsb' 4 12 = 0#12 ↔ rsvField w = 0#2 ∧ idxField w = 0#10 := by
  simp only [← BitVec.toNat_inj, rsvField, idxField, BitVec.extractLsb'_toNat, BitVec.toNat_ofNat,
    Nat.shiftRight_eq_div_pow]
  omega

/-- The three cases of 30_encoding.md R64. -/
theorem decode_illegal_iff_cases {w : CmdWord} : (∃ why, decode w = .illegal why) ↔
    (opcField w = 0x0#4 ∨ 10 ≤ (opcField w).toNat) ∨
    (opcField w ≠ 0x9#4 ∧ w.extractLsb' 4 12 ≠ 0#12) ∨
    (opcField w = 0x9#4 ∧ rsvField w ≠ 0#2) := by
  rw [decode_eq_illegal_iff, opcodeRow_eq_none_iff, Ne, Ne, Ne, Ne, upperBits_eq_zero_iff]
  have hdisjoint : opcField w = 0x9#4 → ¬(opcField w = 0x0#4 ∨ 10 ≤ (opcField w).toNat) := by
    intro h
    rw [h]
    decide
  tauto

theorem executeStep_of_illegal {s : State} (h : ∃ why, decode s.latchW = .illegal why) :
    s.executeStep = .next (s.raise .illegal) := by
  obtain ⟨why, h⟩ := h
  simp [State.executeStep, h]

/-- Settles O4: the cases are read off the decoder's fields, and the Execute step of such a word raises ILLEGAL. -/
theorem reservedWordsAnswerIllegal : Obligations.ReservedWordsAnswerIllegal := by
  refine fun w => ⟨decode_illegal_iff_cases, ?_⟩
  rintro s hw rfl hi hb hr ht
  rw [step_execute hi hb hr ht]
  exact executeStep_of_illegal (s := s.popEdge) hw

end Sys2Proof
end

section
/-! PROOF. The assembler (30_encoding.md R68, R69): a line is accepted when its operands are in range, and its command is
then the one listed. Lines with the same operands differ in the word alone. -/

namespace Sys2Proof.Machine

/-! ### Operands -/

theorem byteOperand_iff {a : Nat} : byteOperand a = true ↔ a < 256 := decide_eq_true_iff

theorem vectorOperand_iff {n : Nat} {v : List Nat} :
    vectorOperand n v = true ↔ v.length = n ∧ ∀ x ∈ v, x < 256 := by
  simp [vectorOperand, byteOperand]

/-- A byte in lane 0 and 0 in the other lanes is the byte as a number. -/
theorem scalarBus_of_lt {a : Nat} (ha : a < 256) : scalarBus a = BitVec.ofNat 512 a := by
  have hbus : scalarBus a = (BitVec.ofNat 8 a).setWidth 512 := by simp [scalarBus, busOfLanes]
  refine hbus.trans (BitVec.eq_of_toNat_eq ?_)
  simp only [BitVec.toNat_setWidth, BitVec.toNat_ofNat]
  omega

theorem lanesOfBus_vectorBus {n : Nat} {v : List Nat} (hn : n ≤ 64) (hv : v.length = n) :
    lanesOfBus n (vectorBus v) = v.map (BitVec.ofNat 8) := by
  subst hv
  simpa [vectorBus] using lanesOfBus_busOfLanes (v.map (BitVec.ofNat 8)) (by simpa using hn)

/-- EXPRD's word as a number (30_encoding.md R68). -/
theorem encode_exprd {i : Nat} (hi : i < 1024) : encode (.exprd i) = BitVec.ofNat 16 (9 + 16 * i) := by
  symm
  rw [eq_encode_iff]
  simp only [← BitVec.toNat_inj, opcField, idxField, rsvField, opcodeOf, indexOf, BitVec.extractLsb'_toNat,
    BitVec.toNat_ofNat, Nat.shiftRight_eq_div_pow]
  omega

/-! ### Lines -/

section
variable {n : Nat} {c : Command} {line : AsmLine}

theorem assemble_eq_some_iff :
    assemble n line = some c ↔ line.wellFormed n = true ∧ c = commandOfLine line := by
  simp [assemble, @eq_comm _ c]

theorem assemble_exists_iff : (∃ d, assemble n line = some d) ↔ line.wellFormed n = true := by
  simp [assemble_eq_some_iff]

/-- Lines accepted alike and with one command. -/
theorem assemble_congr {line' : AsmLine} (hwf : line.wellFormed n = line'.wellFormed n)
    (hc : commandOfLine line = commandOfLine line') : assemble n line = assemble n line' := by
  rw [assemble, assemble, hwf, hc]

/-- A line with one scalar operand. -/
theorem assemble_scalar {w : CmdWord} {a : Nat} (hwf : line.wellFormed n = byteOperand a)
    (hc : commandOfLine line = ⟨w, scalarBus a, 0⟩) :
    assemble n line = some c ↔ a < 256 ∧ c = ⟨w, BitVec.ofNat 512 a, 0⟩ := by
  rw [assemble_eq_some_iff, hwf, hc, byteOperand_iff]
  refine and_congr_right fun ha => ?_
  rw [scalarBus_of_lt ha]

/-- A line with two scalar operands. -/
theorem assemble_scalars {w : CmdWord} {a b : Nat} (hwf : line.wellFormed n = (byteOperand a && byteOperand b))
    (hc : commandOfLine line = ⟨w, scalarBus a, scalarBus b⟩) :
    assemble n line = some c ↔ a < 256 ∧ b < 256 ∧ c = ⟨w, BitVec.ofNat 512 a, BitVec.ofNat 512 b⟩ := by
  rw [assemble_eq_some_iff, hwf, hc, Bool.and_eq_true, byteOperand_iff, byteOperand_iff, and_assoc]
  refine and_congr_right fun ha => and_congr_right fun hb => ?_
  rw [scalarBus_of_lt ha, scalarBus_of_lt hb]

/-- The command of a line with one vector operand, by its lanes. -/
theorem assemble_vector {w : CmdWord} {a : List Nat} (hwf : line.wellFormed n = vectorOperand n a)
    (hc : commandOfLine line = ⟨w, vectorBus a, 0⟩) (hn : n ≤ 64) (h : assemble n line = some c) :
    c.word = w ∧ lanesOfBus n c.a = a.map (BitVec.ofNat 8) ∧ c.b = 0 := by
  rw [assemble_eq_some_iff, hwf, hc, vectorOperand_iff] at h
  obtain ⟨⟨ha, -⟩, rfl⟩ := h
  exact ⟨rfl, lanesOfBus_vectorBus hn ha, rfl⟩

/-- The command of a line with two vector operands, by their lanes. -/
theorem assemble_vectors {w : CmdWord} {a b : List Nat}
    (hwf : line.wellFormed n = (vectorOperand n a && vectorOperand n b))
    (hc : commandOfLine line = ⟨w, vectorBus a, vectorBus b⟩) (hn : n ≤ 64) (h : assemble n line = some c) :
    c.word = w ∧ lanesOfBus n c.a = a.map (BitVec.ofNat 8) ∧ lanesOfBus n c.b = b.map (BitVec.ofNat 8) := by
  rw [assemble_eq_some_iff, hwf, hc, Bool.and_eq_true, vectorOperand_iff, vectorOperand_iff] at h
  obtain ⟨⟨⟨ha, -⟩, hb, -⟩, rfl⟩ := h
  exact ⟨rfl, lanesOfBus_vectorBus hn ha, lanesOfBus_vectorBus hn hb⟩

/-- Which lines with two vector operands are accepted. -/
theorem assemble_vectors_exists_iff {a b : List Nat}
    (hwf : line.wellFormed n = (vectorOperand n a && vectorOperand n b)) :
    (∃ d, assemble n line = some d) ↔ a.length = n ∧ b.length = n ∧ (∀ x ∈ a, x < 256) ∧ ∀ x ∈ b, x < 256 := by
  rw [assemble_exists_iff, hwf, Bool.and_eq_true, vectorOperand_iff, vectorOperand_iff, and_and_and_comm, and_assoc]

theorem assemble_exprd {i : Nat} :
    assemble n (.exprd i) = some c ↔ i < 1024 ∧ c = ⟨BitVec.ofNat 16 (9 + 16 * i), 0, 0⟩ := by
  have hwf : (AsmLine.exprd i).wellFormed n = true ↔ i < 1024 := decide_eq_true_iff
  rw [assemble_eq_some_iff, hwf]
  refine and_congr_right fun hi => ?_
  rw [← encode_exprd hi]
  rfl

theorem assemble_word {w : Nat} :
    assemble n (.word w) = some c ↔ w < 65536 ∧ c = ⟨BitVec.ofNat 16 w, 0, 0⟩ :=
  assemble_eq_some_iff.trans (and_congr_left' decide_eq_true_iff)

end

/-- Settles O6: form by form; a pseudo-command is accepted with its expansion and has its command. -/
theorem assemblerEmitsTheCommand : Obligations.AssemblerEmitsTheCommand := by
  intro n c hn
  exact ⟨fun _ _ => assemble_scalars rfl rfl, fun _ _ => assemble_scalars rfl rfl, fun _ => assemble_scalar rfl rfl,
    fun _ _ => assemble_scalars rfl rfl, fun _ => assemble_scalar rfl rfl, fun _ => assemble_exprd,
    fun _ => assemble_word,
    fun _ _ => assemble_vectors rfl rfl hn, fun _ _ => assemble_vectors rfl rfl hn, fun _ => assemble_vector rfl rfl hn,
    fun _ _ => assemble_vectors_exists_iff rfl, fun _ _ => assemble_vectors_exists_iff rfl,
    fun _ => assemble_exists_iff.trans vectorOperand_iff, fun _ => assemble_congr (Bool.and_self _).symm rfl,
    fun _ => assemble_congr (Bool.and_self _).symm rfl, fun _ => rfl⟩

/-- Settles O5: the assembler's lines by the statement above; the words by evaluation. -/
theorem encodingExamples : Obligations.EncodingExamples :=
  ⟨(assemble_scalars rfl rfl).2 ⟨by decide, by decide, rfl⟩, (assemble_scalars rfl rfl).2 ⟨by decide, by decide, rfl⟩,
    decode_encode (i := .mul) rfl, decode_encode (i := .pow) rfl,
    rfl, decode_encode (i := .exprd 255) rfl, rfl, decode_encode (i := .exprd 1023) rfl,
    rfl, decode_encode (i := .exprd 0) rfl, rfl, rfl⟩

end Sys2Proof.Machine
end

section
/-! PROOF. The scalar result convention (30_encoding.md R67): every answer of a scalar command, an error among them, is a
`respondScalar`. -/

namespace Sys2Proof.Machine

open State

/-- An error response is a scalar one whose lane 0 is 0 and absent too. -/
theorem raise_eq_respondScalar (s : State) (st : Status) : s.raise st = s.respondScalar st 0 true := by
  rw [raise_eq_respond, respondScalar_eq_respond, ← List.replicate_succ, ← List.replicate_succ, s.lanes_sub_one]

/-- Whenever `r` answers a next state, it is `s` with a scalar response written. -/
def AnswersScalar (s : State) (r : Result State) : Prop :=
  ∀ t, r = .next t → ∃ (st : Status) (v : Byte) (absent0 : Bool), t = s.respondScalar st v absent0

namespace AnswersScalar

variable {s : State} {r r' : Result State}

theorem respondScalar {st : Status} {v : Byte} {absent0 : Bool} :
    AnswersScalar s (.next (s.respondScalar st v absent0)) := by
  rintro t ⟨⟩
  exact ⟨st, v, absent0, rfl⟩

theorem raise {st : Status} : AnswersScalar s (.next (s.raise st)) := by
  rw [raise_eq_respondScalar]
  exact respondScalar

theorem ite {p : Prop} [Decidable p] (h : AnswersScalar s r) (h' : AnswersScalar s r') :
    AnswersScalar s (if p then r else r') := by
  split
  · exact h
  · exact h'

theorem whenReady (h : AnswersScalar s r) : AnswersScalar s (s.whenReady r) :=
  fun t ht => h t (whenReady_eq_next.1 ht).2

/-- A lookup whose value is the result. -/
theorem lookup {α : Type} {l : Result α} {v : α → Byte} :
    AnswersScalar s (andThen l fun a => .next (s.respondScalar .ok (v a) false)) := by
  intro t ht
  obtain ⟨a, -, ha⟩ := andThen_eq_next.1 ht
  exact respondScalar t ha

end AnswersScalar

/-- The arms of the six scalar commands, check by check. -/
theorem exec_answersScalar {i : Instr} (s : State)
    (hi : i = .mul ∨ i = .div ∨ i = .inv ∨ i = .pow ∨ i = .logrd ∨ ∃ idx, i = .exprd idx) :
    AnswersScalar s (exec i s) := by
  rcases hi with rfl | rfl | rfl | rfl | rfl | ⟨idx, rfl⟩
  · exact .whenReady (.ite .respondScalar .lookup)
  · exact .whenReady (.ite .raise (.ite .respondScalar .lookup))
  · exact .whenReady (.ite .raise .lookup)
  · exact .whenReady (.ite .respondScalar .lookup)
  · exact .whenReady .lookup
  · exact .whenReady .lookup

/-- Settles O38: lane l + 1 of a scalar response is lane l of the filling. -/
theorem scalarResultConvention : Obligations.ScalarResultConvention := by
  intro s t i hi h
  obtain ⟨st, v, absent0, rfl⟩ := exec_answersScalar s hi t h
  refine ⟨by simp [s.lanes_sub_one], by simp [s.lanes_sub_one], fun l h1 hl => ?_⟩
  obtain ⟨k, rfl⟩ := Nat.exists_eq_add_of_le' h1
  have hk : k < s.lanes - 1 := by omega
  simp [hk]

end Sys2Proof.Machine
end

section
/-! PROOF. The generated tables as a pair (40_table_gen.md R81 to R84, R87): the logarithm of a power of the generator
element is its exponent, and the power at a logarithm is the byte. -/

namespace Sys2Proof.Machine

/-! ### Powers and logarithms undo each other -/

/-- Each nonzero byte is one of the 255 powers. -/
theorem exists_power_eq {v : Byte} (hv : v ≠ 0) : ∃ i < 255, power i = v := by
  have hpos : v.toNat ≠ 0 := fun h => hv (BitVec.eq_of_toNat_eq h)
  have hmem : v.toNat ∈ (List.range 255).map fun i => (power i).toNat :=
    powers_perm.mem_iff.2 (List.mem_range'_1.2 (by have := v.isLt; omega))
  obtain ⟨i, hi, hpow⟩ := List.mem_map.1 hmem
  exact ⟨i, List.mem_range.1 hi, BitVec.eq_of_toNat_eq hpow⟩

theorem power_inj {i j : Nat} (hi : i < 255) (hj : j < 255) (h : power i = power j) : i = j := by
  rcases lt_trichotomy i j with hij | hij | hij
  · exact absurd h (power_ne_power_of_lt hij hj)
  · exact hij
  · exact absurd h.symm (power_ne_power_of_lt hij hi)

theorem power_add (i d : Nat) : power (i + d) = xtime^[d] (power i) := by
  induction d with
  | zero => rfl
  | succ d ih => rw [← Nat.add_assoc, power_succ, ih, Function.iterate_succ_apply']

/-- 0x8E, the byte that the step takes to 1, is the last of the 255 powers: no earlier step reaches 1. -/
theorem power_last : power 254 = 0x8E := by
  obtain ⟨i, hi, hpow⟩ := exists_power_eq (v := 0x8E) (by decide)
  have hone : power (i + 1) = 1 := by
    rw [power_succ, hpow]
    decide
  have hlast : i = 254 := by
    by_contra h
    exact power_ne_one (i + 1) (by omega) (by omega) hone
  rw [← hlast, hpow]

/-- The order of the generator element (40_table_gen.md R83). -/
theorem power_order : power 255 = 1 := by
  rw [power_succ, power_last]
  decide

theorem power_twenty_five : power 25 = 3 := by
  have h12 : power 12 = 0xCD := by decide
  rw [power_add 12 13, h12]
  decide

/-- The search of `logEntry` stops at the one exponent below 255 that gives the byte. -/
theorem logEntry_power {i : Nat} (hi : i < 255) : logEntry (power i) = BitVec.ofNat 9 i := by
  cases hfind : (List.range 255).find? fun j => power j == power i with
  | none => simpa using List.find?_eq_none.1 hfind i (List.mem_range.2 hi)
  | some j =>
    have hj : j < 255 := List.mem_range.1 (List.mem_of_find?_eq_some hfind)
    have hji : j = i := power_inj hj hi (by simpa using List.find?_some hfind)
    simp only [logEntry, power_ne_zero, if_false, hfind, hji]

theorem power_logEntry {v : Byte} (hv : v ≠ 0) : power (logEntry v).toNat = v := by
  obtain ⟨i, hi, rfl⟩ := exists_power_eq hv
  have hlog : (logEntry (power i)).toNat = i := by
    rw [logEntry_power hi, BitVec.toNat_ofNat]
    omega
  rw [hlog]

/-! ### The regions of EXP -/

theorem expEntry_mod {i : Nat} (h : i ≤ 509) : expEntry i = power (i % 255) := by
  rcases Nat.lt_or_ge i 255 with hi | hi
  · rw [expEntry_of_le i (by omega), Nat.mod_eq_of_lt hi]
  · obtain ⟨j, rfl⟩ := Nat.exists_eq_add_of_le' hi
    have hj : j < 255 := by omega
    rw [expEntry_periodic j (by omega), Nat.add_mod_right, Nat.mod_eq_of_lt hj]

theorem expGen_read?_of_lt {i : Nat} (h : i < 1024) : expGen.read? i = some (expEntry i) := by
  rw [expGen_read?, if_pos h]

/-! ### The statements -/

/-- Settles O8: the powers are distinct, nonzero and as many as the nonzero bytes. -/
theorem powersEnumerateNonzeroBytes : Obligations.PowersEnumerateNonzeroBytes := by
  have hexp : ∀ i, i < 255 → expEntry i = power i := fun i hi => expEntry_of_le i (by omega)
  refine ⟨fun i hi => ?_, fun v hv => ?_, ?_, fun i h0 hi => ?_, tableCheck_expGen⟩
  · rw [hexp i hi]
    exact power_ne_zero i
  · obtain ⟨i, hi, rfl⟩ := exists_power_eq hv
    exact ⟨i, hi, hexp i hi, fun j hj hji => power_inj hj hi ((hexp j hj).symm.trans hji)⟩
  · rw [hexp 254 (by omega), ← power_succ]
    exact power_order
  · rw [hexp i hi]
    exact power_ne_one i hi h0

/-- Settles O9: EXP is periodic below its zero region, and LOG and EXP undo each other. -/
theorem generatedTableInvariants : Obligations.GeneratedTableInvariants := by
  refine ⟨fun v => ⟨expGen_read?_of_lt (by have := v.isLt; omega), logGen_read? v⟩, fun v hv => ?_, fun i hi => ?_,
    fun i hi => ?_, fun i h0 hi => ?_, fun i hi => ⟨expEntry i, expGen_read?_of_lt (by omega), ?_⟩,
    fun v hv => logEntry_le_of_ne_zero hv, logEntry_zero⟩
  · have hlog := logEntry_le_of_ne_zero hv
    rw [expGen_read?_of_lt (by omega), expEntry_of_le _ hlog, power_logEntry hv]
  · rw [expEntry_of_le i hi, logGen_read?, logEntry_power (by omega)]
  · rw [expGen_read?_of_lt (by omega), expGen_read?_of_lt (by omega), expEntry_mod hi, expEntry_mod (by omega),
      Nat.mod_mod]
  · rw [expGen_read?_of_lt (by omega), expEntry_zero_region i h0]
  · rw [expEntry_mod hi]
    exact power_ne_zero _

/-- Settles O10: 1, 2 and 3 are the powers 0, 1 and 25 of the generator element. -/
theorem conformanceValues : Obligations.ConformanceValues := by
  have hlog : ∀ v : Byte, ∀ i < 255, power i = v → logGen.read? v.toNat = some (BitVec.ofNat 9 i) := by
    rintro v i hi rfl
    rw [logGen_read?, logEntry_power hi]
  have hexp : ∀ (i : Nat) (v : Byte), i < 1024 → expEntry i = v → expGen.read? i = some v := by
    rintro i v hi rfl
    exact expGen_read?_of_lt hi
  exact ⟨hlog 1 0 (by decide) rfl, hlog 2 1 (by decide) (by decide), hlog 3 25 (by decide) power_twenty_five,
    hexp 0 1 (by decide) (by decide), hexp 1 2 (by decide) (by decide),
    hexp 255 1 (by decide) (expEntry_periodic 0 (by decide))⟩

/-- The two variants of the step agree on every byte (40_table_gen.md R80, R84). -/
theorem xtimeReduced_eq_xtime (v : Byte) : xtimeReduced v = xtime v := by
  have hdoubled : (v.setWidth 9 <<< 1).setWidth 8 = v <<< 1 := by
    ext k hk
    simp
  unfold xtimeReduced xtime
  split
  · rw [BitVec.setWidth_xor, hdoubled]
    rfl
  · simp [hdoubled]

/-- Settles O11: EXP[i] is the step applied to EXP[i-1], in either variant. -/
theorem reducedStepGivesTheSameTable : Obligations.ReducedStepGivesTheSameTable := by
  intro i h1 hi
  obtain ⟨j, rfl⟩ := Nat.exists_eq_add_of_le' h1
  rw [Nat.add_sub_cancel, xtimeReduced_eq_xtime, expEntry_of_le _ hi, expEntry_of_le j (by omega), power_succ]

end Sys2Proof.Machine
end

section
/-! PROOF. The generator's procedure (40_table_gen.md R80), write by write: EXP grows entry by entry, and LOG reads the
exponent of each power so far. -/

namespace Sys2Proof.Machine

/-! ### Table memories -/

namespace Memory

variable {w : Nat}

theorem mem_iff_read? {m : Memory w} (h : m.wf = true) {k : Nat} {v : BitVec w} :
    (k, v) ∈ m ↔ m.read? k = some v := by
  rw [wf_iff_pairwise] at h
  induction m with
  | nil => simp [read?]
  | cons c rest ih =>
    obtain ⟨i, u⟩ := c
    simp only [List.map_cons, List.pairwise_cons] at h
    obtain ⟨hi, hrest⟩ := h
    rw [List.mem_cons, Prod.mk.injEq, read?, ih hrest]
    by_cases hik : i = k
    · subst hik
      have hnot : read? rest i ≠ some v := fun hv =>
        absurd (hi i (List.mem_map_of_mem (f := Prod.fst) ((ih hrest).2 hv))) (Nat.lt_irrefl i)
      simp [hnot, @eq_comm _ u]
    · simp [hik, Ne.symm hik]

/-- In canonical form, a memory is what reading it answers. -/
theorem eq_of_read? {m m' : Memory w} (h : m.wf = true) (h' : m'.wf = true) (hread : ∀ k, m.read? k = m'.read? k) :
    m = m' := by
  have hlt : ∀ {n : Memory w}, n.wf = true → n.Pairwise fun c d => c.1 < d.1 :=
    fun hn => List.pairwise_map.1 ((wf_iff_pairwise _).1 hn)
  have hnodup : ∀ {n : Memory w}, n.wf = true → n.Nodup :=
    fun hn => (hlt hn).imp fun hcd hc => by simp [hc] at hcd
  refine List.Perm.eq_of_pairwise (fun _ _ _ _ hab hba => absurd hab (Nat.lt_asymm hba)) (hlt h) (hlt h')
    ((List.perm_ext_iff_of_nodup (hnodup h) (hnodup h')).2 fun ⟨k, v⟩ => ?_)
  rw [mem_iff_read? h, mem_iff_read? h', hread]

/-- The first `n` entries of a table. -/
def entries (f : Nat → BitVec w) (n : Nat) : Memory w := (List.range n).map fun i => (i, f i)

theorem read?_entries (f : Nat → BitVec w) (n i : Nat) : (entries f n).read? i = if i < n then some (f i) else none :=
  read?_map_range f n i

/-- The write of the next entry. -/
theorem write_entries (f : Nat → BitVec w) (n : Nat) : (entries f n).write n (f n) = entries f (n + 1) := by
  refine eq_of_read? (wf_write _ _ _ (wf_map_range f n)) (wf_map_range f (n + 1)) fun k => ?_
  rw [read?_write, read?_entries, read?_entries]
  by_cases hk : k = n
  · simp [hk]
  · have hlt : k < n + 1 ↔ k < n := by omega
    simp [hk, hlt]

/-- A loop whose rounds each write the next entry. -/
theorem foldl_entries {f : Nat → BitVec w} {g : Memory w → Nat → Memory w} {n k : Nat}
    (hg : ∀ j < k, g (entries f (n + j)) j = (entries f (n + j)).write (n + j) (f (n + j))) :
    (List.range k).foldl g (entries f n) = entries f (n + k) := by
  induction k with
  | zero => rfl
  | succ k ih =>
    rw [List.range_succ, List.foldl_append, ih fun j hj => hg j (by omega), List.foldl_cons, List.foldl_nil,
      hg k (by omega), write_entries]
    rfl

end Memory

/-! ### The loop over the powers -/

/-- A round doubles and reduces x, whatever is written so far. -/
theorem generationRound_x (g : Generation) (i : Nat) :
    (generationRound g i).x = (generationRound ⟨g.x, [], []⟩ 0).x := rfl

theorem generationRound_log (g : Generation) (i : Nat) :
    (generationRound g i).log = g.log.write (generationRound g i).x.toNat (BitVec.ofNat 9 i) := rfl

theorem generationRound_exp (g : Generation) (i : Nat) :
    (generationRound g i).exp = g.exp.write i ((generationRound g i).x.setWidth 8) := rfl

/-- Doubling on 9 bits and reducing is the step on 8 bits (40_table_gen.md R80; 00_scope.md R16). -/
theorem generationRound_x_byte (v : Byte) :
    (generationRound ⟨v.setWidth 9, [], []⟩ 0).x = (xtime v).setWidth 9 := by
  have htop : 256 ≤ (v.setWidth 9 <<< 1).toNat ↔ v[7] = true := by
    rw [← BitVec.getLsbD_eq_getElem, ← BitVec.msb_eq_getLsbD_last, BitVec.msb_eq_decide]
    simp
    omega
  simp only [generationRound, xtime, htop, BitVec.getLsbD_eq_getElem, Nat.lt_add_one]
  split <;> ext k hk <;> interval_cases k <;> simp [Config.poly, *]

/-- What the loop has built when the powers up to `n` are written. -/
structure Generated (n : Nat) (g : Generation) : Prop where
  x           : g.x = (power n).setWidth 9
  exp         : g.exp = Memory.entries expEntry (n + 1)
  log_wf      : g.log.wf = true
  log_power   : ∀ i ≤ n, g.log.read? (power i).toNat = some (BitVec.ofNat 9 i)
  log_outside : ∀ k, 256 ≤ k → g.log.read? k = none

theorem generated_start : Generated 0 ⟨1, Memory.write [] 1 0, Memory.write [] 0 1⟩ where
  x := rfl
  exp := rfl
  log_wf := rfl
  log_power := by
    intro i hi
    obtain rfl := Nat.le_zero.1 hi
    rfl
  log_outside := by
    intro k hk
    rw [Memory.read?_write_other _ _ _ _ (by omega)]
    rfl

theorem Generated.round {n : Nat} {g : Generation} (h : Generated n g) (hn : n + 1 < 255) :
    Generated (n + 1) (generationRound g (n + 1)) := by
  have hx : (generationRound g (n + 1)).x = (power (n + 1)).setWidth 9 := by
    rw [generationRound_x, h.x, generationRound_x_byte, power_succ]
  have hlog : (generationRound g (n + 1)).log = g.log.write (power (n + 1)).toNat (BitVec.ofNat 9 (n + 1)) := by
    rw [generationRound_log, hx, BitVec.toNat_setWidth_of_le (by decide)]
  refine ⟨hx, ?_, ?_, fun i hi => ?_, fun k hk => ?_⟩
  · rw [generationRound_exp, hx, BitVec.setWidth_setWidth_of_le _ (by decide), BitVec.setWidth_eq, h.exp,
      ← Memory.write_entries _ (n + 1), expEntry_of_le (n + 1) (by omega)]
  · rw [hlog]
    exact Memory.wf_write _ _ _ h.log_wf
  · rw [hlog, Memory.read?_write]
    split
    · rename_i heq
      rw [power_inj (by omega) hn (BitVec.eq_of_toNat_eq heq)]
    · rename_i hne
      have hin : i ≠ n + 1 := fun h => hne (by rw [h])
      exact h.log_power i (by omega)
  · rw [hlog, Memory.read?_write_other _ _ _ _ (by omega)]
    exact h.log_outside k hk

/-- The loop of R80 with its first `n` rounds run. -/
theorem generated_powers : ∀ n < 255, Generated n
    ((List.range n).foldl (fun g k => generationRound g (k + 1)) ⟨1, Memory.write [] 1 0, Memory.write [] 0 1⟩) := by
  intro n hn
  induction n with
  | zero => exact generated_start
  | succ n ih =>
    rw [List.range_succ, List.foldl_append]
    exact (ih (by omega)).round hn

/-! ### The result -/

/-- With the sentinel written, LOG has an entry for every byte and no other. -/
theorem Generated.log_eq {g : Generation} (h : Generated 254 g) : g.log.write 0 Config.logZero = logGen := by
  refine Memory.eq_of_read? (Memory.wf_write _ _ _ h.log_wf) logGen_wf fun k => ?_
  rcases Nat.lt_or_ge k 256 with hk | hk
  · obtain ⟨v, rfl⟩ : ∃ v : Byte, v.toNat = k := ⟨BitVec.ofNat 8 k, Nat.mod_eq_of_lt hk⟩
    rw [logGen_read?]
    by_cases hv : v = 0
    · subst hv
      exact Memory.read?_write_same _ _ _
    · obtain ⟨i, hi, rfl⟩ := exists_power_eq hv
      rw [Memory.read?_write_other _ _ _ _ (by simpa [← BitVec.toNat_inj] using hv), h.log_power i (by omega),
        logEntry_power hi]
  · rw [Memory.read?_write_other _ _ _ _ (by omega), h.log_outside k hk, logGen, Memory.read?_map_range,
      if_neg (by simpa [Config.logLength] using hk)]

theorem runGenerator_log : runGenerator.log = logGen := by
  simp only [runGenerator]
  exact (generated_powers 254 (by decide)).log_eq

/-- The periodic region copies the powers and the zero region follows (40_table_gen.md R82). -/
theorem runGenerator_exp : runGenerator.exp = expGen := by
  simp only [runGenerator, (generated_powers 254 (by decide)).exp]
  rw [Memory.foldl_entries (f := expEntry) fun j hj => ?periodic, Memory.foldl_entries fun j hj => ?zeros]
  · rfl
  case periodic =>
    rw [Memory.read?_entries, if_pos (by omega), expEntry_of_le j (by omega), ← expEntry_periodic j (by omega)]
    simp only [Nat.add_comm]
  case zeros =>
    simp only [expEntry_zero_region (255 + 255 + j) (by omega)]

/-- Settles O7: the procedure's tables are the generated ones, whose check passes. -/
theorem generatorProcedureBuildsTables : Obligations.GeneratorProcedureBuildsTables :=
  ⟨runGenerator_log, runGenerator_exp, runGenerator_exp ▸ tableCheck_expGen⟩

end Sys2Proof.Machine
end

section
/-! PROOF. Reset and generation, and the read-back of the tables (40_table_gen.md R85, R89, R90). -/

namespace Sys2Proof.Machine

open State

/-! ### Reset, then Generate -/

/-- The Reset step is taken. -/
theorem step_reset {s : State} (hr : s.edge.rst = true) : step s = .next s.popEdge.resetStep := by
  simp [step, clockEdge, hr]

/-- After Reset the tables are incomplete, so the next step is Generate. -/
theorem generateStep_of_reset {s s₁ s₂ : State} (hr : s.edge.rst = true) (h₁ : step s = .next s₁)
    (hr₁ : s₁.edge.rst = false) (ht₁ : s₁.edge.unitTurn = true) (h₂ : step s₁ = .next s₂) :
    s₂ = s₁.popEdge.generateStep := by
  rw [step_reset hr] at h₁
  cases h₁
  rw [step_generate rfl hr₁ ht₁] at h₂
  cases h₂
  rfl

/-- Settles O13: both runs end in a Generate step, which writes the same tables whatever the state. -/
theorem generationIsDeterministic : Obligations.GenerationIsDeterministic := by
  intro s s₁ s₂ t t₁ t₂ hs hs₁ hsr hsu hs₂ ht ht₁ htr htu ht₂
  obtain rfl := generateStep_of_reset hs hs₁ hsr hsu hs₂
  obtain rfl := generateStep_of_reset ht ht₁ htr htu ht₂
  have hready := tablesReady_generateStep s₁.popEdge
  exact ⟨by simp, by simp, by simp, by simp, fun i => ⟨_, hready.logRead i⟩,
    fun i hi => ⟨_, hready.expRead i hi⟩⟩

/-! ### Read-back -/

/-- A logarithm up to 254 has bit 8 clear and a low byte other than 0xFF. -/
theorem logEntry_bits_of_ne_zero {v : Byte} (hv : v ≠ 0) :
    (logEntry v).extractLsb' 0 8 ≠ 0xFF#8 ∧ (logEntry v).getLsbD 8 = false := by
  have hlog := logEntry_le_of_ne_zero hv
  refine ⟨fun h => ?_, Nat.testBit_lt_two_pow (by omega)⟩
  have hlow : (logEntry v).toNat % 256 = 255 := by simpa using congrArg BitVec.toNat h
  omega

theorem logEntry_low_iff {v : Byte} : (logEntry v).extractLsb' 0 8 = 0xFF#8 ↔ v = 0 :=
  ⟨fun h => by_contra fun hv => (logEntry_bits_of_ne_zero hv).1 h, by rintro rfl; rfl⟩

theorem logEntry_bit8_iff {v : Byte} : (logEntry v).getLsbD 8 = true ↔ v = 0 :=
  ⟨fun h => by_contra fun hv => Bool.false_ne_true ((logEntry_bits_of_ne_zero hv).2.symm.trans h), by rintro rfl; rfl⟩

/-- Settles O46: the command reads the one entry, and only the sentinel's low byte is 0xFF. -/
theorem logrdResult : Obligations.LogrdResult := by
  refine ⟨rfl, decode_encode (i := .logrd) rfl, fun s h => ⟨?_, logEntry_low_iff, logEntry_bit8_iff⟩⟩
  simp [exec, execLogrd, h.whenReady, h.logRead]

/-- Settles O47: the index is the word's field and stays inside EXP; EXP[509] is the last power. -/
theorem exprdResult : Obligations.ExprdResult := by
  refine fun s idx h hidx => ⟨encode_exprd hidx, decode_encode (decide_eq_true hidx), ?_, expEntry_zero_region idx, ?_,
    ?_⟩
  · simp [exec, execExprd, h.whenReady, h.expRead idx hidx]
  · exact expEntry_periodic 0 (by decide)
  · exact (expEntry_periodic 254 (by decide)).trans power_last

end Sys2Proof.Machine
end

section
/-! PROOF. The field product of 00_scope.md R16 (41_scalar.md R111): it carries XOR to XOR in both factors and
doubling to doubling, so on the powers of the generator element it adds the exponents; the field laws follow. -/

namespace Sys2Proof.Machine

/-! ### Functions that carry XOR to XOR -/

/-- `f` carries XOR to XOR. -/
def XorAdditive {m n : Nat} (f : BitVec m → BitVec n) : Prop := ∀ x y, f (x ^^^ y) = f x ^^^ f y

/-- The XOR of the words `g i` over the listed bits i that are set in `y`. -/
def xorSum {m n : Nat} (y : BitVec m) (g : Nat → BitVec n) : List Nat → BitVec n
  | [] => 0
  | i :: l => (if y.getLsbD i then g i else 0#n) ^^^ xorSum y g l

section
variable {m n p : Nat}

/-- XOR of a conditional word, split along the condition and along the word. -/
theorem ite_bne_xor (b c : Bool) (u : BitVec n) :
    (if (b ^^ c) = true then u else 0#n) = (if b then u else 0#n) ^^^ (if c then u else 0#n) := by
  cases b <;> cases c <;> simp

theorem ite_xor (b : Bool) (u v : BitVec n) :
    (if b then u ^^^ v else 0#n) = (if b then u else 0#n) ^^^ (if b then v else 0#n) := by
  cases b <;> simp

/-- A fold that XORs in the terms of the set bits is their sum. -/
theorem foldl_eq_xorSum (y : BitVec m) (g : Nat → BitVec n) (l : List Nat) (a : BitVec n) :
    l.foldl (fun acc i => if y.getLsbD i then acc ^^^ g i else acc) a = a ^^^ xorSum y g l := by
  induction l generalizing a with
  | nil => simp [xorSum]
  | cons i l ih =>
    rw [List.foldl_cons, ih, xorSum]
    cases y.getLsbD i <;> simp [BitVec.xor_assoc]

theorem xorSum_additive (g : Nat → BitVec n) (l : List Nat) : XorAdditive fun y : BitVec m => xorSum y g l := by
  intro y y'
  induction l with
  | nil => simp [xorSum]
  | cons i l ih =>
    simp only [xorSum, BitVec.getLsbD_xor, ite_bne_xor, ih]
    ac_rfl

theorem xorSum_xor_terms (y : BitVec m) (g g' : Nat → BitVec n) (l : List Nat) :
    xorSum y (fun i => g i ^^^ g' i) l = xorSum y g l ^^^ xorSum y g' l := by
  induction l with
  | nil => simp [xorSum]
  | cons i l ih =>
    simp only [xorSum, ite_xor, ih]
    ac_rfl

theorem xorSum_congr (y : BitVec m) {g g' : Nat → BitVec n} {l : List Nat} (h : ∀ i ∈ l, g i = g' i) :
    xorSum y g l = xorSum y g' l := by
  induction l with
  | nil => rfl
  | cons i l ih =>
    obtain ⟨hi, hl⟩ := List.forall_mem_cons.1 h
    rw [xorSum, xorSum, hi, ih hl]

/-- A byte is the sum of its set bits. -/
theorem xorSum_bits : ∀ v : Byte, xorSum v (fun i => 1#8 <<< i) (List.range 8) = v := by decide +kernel

namespace XorAdditive

theorem id : XorAdditive fun x : BitVec n => x := fun _ _ => rfl

theorem comp {f : BitVec n → BitVec p} {g : BitVec m → BitVec n} (hf : XorAdditive f) (hg : XorAdditive g) :
    XorAdditive fun x => f (g x) := fun x y => (congrArg f (hg x y)).trans (hf _ _)

theorem map_zero {f : BitVec m → BitVec n} (hf : XorAdditive f) : f 0#m = 0#n := by
  simpa using hf 0 0

theorem map_xorSum {f : BitVec n → BitVec p} (hf : XorAdditive f) (y : BitVec m) (g : Nat → BitVec n) (l : List Nat) :
    f (xorSum y g l) = xorSum y (fun i => f (g i)) l := by
  induction l with
  | nil => exact hf.map_zero
  | cons i l ih => rw [xorSum, xorSum, hf, ih, apply_ite f, hf.map_zero]

/-- Two such functions of a byte are equal where they agree on the eight bits. -/
theorem eq_of_bits {f g : Byte → BitVec n} (hf : XorAdditive f) (hg : XorAdditive g)
    (h : ∀ i < 8, f (1#8 <<< i) = g (1#8 <<< i)) (v : Byte) : f v = g v := by
  have hsum := xorSum_congr v fun i hi => h i (List.mem_range.1 hi)
  rwa [← hf.map_xorSum, ← hg.map_xorSum, xorSum_bits] at hsum

/-- A fold whose every round carries XOR to XOR does so as a whole. -/
theorem foldl {r : BitVec n → Nat → BitVec n} (hr : ∀ i, XorAdditive (r · i)) (l : List Nat) :
    XorAdditive fun x => l.foldl r x := by
  induction l with
  | nil => exact id
  | cons i l ih => exact ih.comp (hr i)

end XorAdditive
end

/-! ### Doubling, reduction and the product -/

theorem xtime_additive : XorAdditive xtime := by
  intro x y
  simp only [← xtimeReduced_eq_xtime, xtimeReduced, BitVec.getLsbD_xor, ite_bne_xor, BitVec.shiftLeft_xor_distrib]
  ac_rfl

/-- One round of the reduction: the bit tested is carried along by XOR. -/
theorem reduceRound_additive {n : Nat} (k : Nat) (u : BitVec n) :
    XorAdditive fun acc : BitVec n => if acc.getLsbD k then acc ^^^ u else acc := by
  have hround : (fun acc : BitVec n => if acc.getLsbD k then acc ^^^ u else acc) =
      fun acc => acc ^^^ (if acc.getLsbD k then u else 0#n) := by
    funext acc
    split <;> simp
  rw [hround]
  intro x y
  simp only [BitVec.getLsbD_xor, ite_bne_xor]
  ac_rfl

theorem reducePoly_additive : XorAdditive reducePoly := by
  have hwidth : XorAdditive fun p : BitVec 16 => p.setWidth 8 := fun _ _ => BitVec.setWidth_xor
  exact hwidth.comp (.foldl (fun _ => reduceRound_additive _ _) _)

theorem clmul_eq_xorSum (x y : Byte) : clmul x y = xorSum y (fun i => x.setWidth 16 <<< i) (List.range 8) := by
  rw [clmul, foldl_eq_xorSum]
  exact BitVec.zero_xor

theorem gmul_additive_right (x : Byte) : XorAdditive fun y => gmul x y := by
  have hclmul : XorAdditive fun y => clmul x y := fun y y' => by simp only [clmul_eq_xorSum, xorSum_additive _ _ y y']
  exact reducePoly_additive.comp hclmul

theorem gmul_additive_left (y : Byte) : XorAdditive fun x => gmul x y := by
  have hclmul : XorAdditive fun x => clmul x y := fun x x' => by
    simp only [clmul_eq_xorSum, BitVec.setWidth_xor, BitVec.shiftLeft_xor_distrib, xorSum_xor_terms]
  exact reducePoly_additive.comp hclmul

theorem gmul_xor (a b d : Byte) : gmul a (b ^^^ d) = gmul a b ^^^ gmul a d := gmul_additive_right a b d

@[simp] theorem gmul_zero (x : Byte) : gmul x 0#8 = 0#8 := (gmul_additive_right x).map_zero

@[simp] theorem zero_gmul (y : Byte) : gmul 0#8 y = 0#8 := (gmul_additive_left y).map_zero

@[simp] theorem gmul_one (x : Byte) : gmul x 1#8 = x :=
  (gmul_additive_left 1).eq_of_bits .id (by decide) x

/-- Doubling a factor doubles the product: both sides carry XOR to XOR in each factor, so the 64 products of two bits
decide it. -/
theorem gmul_xtime (x y : Byte) : gmul x (xtime y) = xtime (gmul x y) := by
  have hbits : ∀ j < 8, ∀ i < 8,
      gmul (1#8 <<< i) (xtime (1#8 <<< j)) = xtime (gmul (1#8 <<< i) (1#8 <<< j)) := by decide
  refine ((gmul_additive_right x).comp xtime_additive).eq_of_bits (xtime_additive.comp (gmul_additive_right x))
    (fun j hj => ?_) y
  exact (gmul_additive_left _).eq_of_bits (xtime_additive.comp (gmul_additive_left _)) (hbits j hj) x

/-! ### The product on powers of the generator element -/

theorem gmul_power (i j : Nat) : gmul (power i) (power j) = power (i + j) := by
  induction j with
  | zero => exact gmul_one _
  | succ j ih => rw [power_succ, gmul_xtime, ih, ← power_succ, Nat.add_assoc]

/-- The powers repeat after 255 (40_table_gen.md R83). -/
theorem power_mod (i : Nat) : power (i % 255) = power i := by
  have hperiodic : Function.Periodic power 255 := fun k => by
    rw [← gmul_power, power_order]
    exact gmul_one _
  exact hperiodic.map_mod_nat i

/-- A byte is 0 or a power of the generator element, the one that its logarithm names. -/
theorem eq_zero_or_power (v : Byte) : v = 0 ∨ ∃ i < 255, v = power i ∧ (logEntry v).toNat = i := by
  by_cases hv : v = 0
  · exact .inl hv
  · exact .inr ⟨_, Nat.lt_succ_of_le (logEntry_le_of_ne_zero hv), (power_logEntry hv).symm, rfl⟩

theorem gmul_comm (a b : Byte) : gmul a b = gmul b a := by
  rcases eq_zero_or_power a with rfl | ⟨i, -, rfl, -⟩
  · simp
  rcases eq_zero_or_power b with rfl | ⟨j, -, rfl, -⟩
  · simp
  rw [gmul_power, gmul_power, Nat.add_comm]

theorem gmul_assoc (a b d : Byte) : gmul (gmul a b) d = gmul a (gmul b d) := by
  rcases eq_zero_or_power a with rfl | ⟨i, -, rfl, -⟩
  · simp
  rcases eq_zero_or_power b with rfl | ⟨j, -, rfl, -⟩
  · simp
  rcases eq_zero_or_power d with rfl | ⟨k, -, rfl, -⟩
  · simp
  simp only [gmul_power, Nat.add_assoc]

@[simp] theorem one_gmul (x : Byte) : gmul 1#8 x = x := by rw [gmul_comm, gmul_one]

/-! ### Powers of any byte -/

/-- The product of `n` copies of `a`. -/
def gpow (a : Byte) : Nat → Byte
  | 0 => 1#8
  | n + 1 => gmul (gpow a n) a

theorem gpow_zero (a : Byte) : gpow a 0 = 1#8 := rfl

theorem gpow_succ (a : Byte) (n : Nat) : gpow a (n + 1) = gmul (gpow a n) a := rfl

theorem gpow_add (a : Byte) (n k : Nat) : gpow a (n + k) = gmul (gpow a n) (gpow a k) := by
  induction k with
  | zero => rw [gpow_zero, gmul_one, Nat.add_zero]
  | succ k ih => rw [← Nat.add_assoc, gpow_succ, ih, gmul_assoc, gpow_succ]

theorem gpow_power (i n : Nat) : gpow (power i) n = power (n * i) := by
  induction n with
  | zero =>
    rw [Nat.zero_mul]
    rfl
  | succ n ih => rw [gpow_succ, ih, gmul_power, Nat.succ_mul]

/-- A round of the square-and-multiply power (41_scalar.md R109), for exponent bit i. -/
def squareRound (a e r : Byte) (i : Nat) : Byte := if e.getLsbD i then gmul (gmul r r) a else gmul r r

/-- A round doubles the exponent reached and adds the bit. -/
theorem squareRound_gpow (a e : Byte) (i : Nat) :
    squareRound a e (gpow a (e.toNat >>> (i + 1))) i = gpow a (e.toNat >>> i) := by
  have hshift : e.toNat >>> i = e.toNat >>> (i + 1) + e.toNat >>> (i + 1) + (e.getLsbD i).toNat := by
    rw [BitVec.getLsbD, Nat.toNat_testBit, Nat.shiftRight_succ, Nat.shiftRight_eq_div_pow]
    omega
  rw [squareRound, hshift, ← gpow_add]
  cases e.getLsbD i <;> rfl

/-- From the exponent's upper bits, the rounds over its low k bits reach the whole exponent. -/
theorem foldl_squareRound (a e : Byte) (k : Nat) :
    (List.range k).reverse.foldl (squareRound a e) (gpow a (e.toNat >>> k)) = gpow a e.toNat := by
  induction k with
  | zero => rfl
  | succ k ih =>
    rw [List.range_succ, List.reverse_append, List.reverse_singleton, List.singleton_append, List.foldl_cons,
      squareRound_gpow, ih]

theorem squareMultiply_eq_gpow (a e : Byte) : squareMultiply a e = gpow a e.toNat := by
  have hstart : e.toNat >>> 8 = 0 := Nat.shiftRight_eq_zero _ _ e.isLt
  have hrounds := foldl_squareRound a e 8
  rwa [hstart, gpow_zero] at hrounds

end Sys2Proof.Machine
end

section
/-! PROOF. The scalar field engine (41_scalar.md): its four lookups over the generated tables give the field's values,
its checks cover the operands for which they do not, and the laws of R109 and R111 are the field's. -/

namespace Sys2Proof.Machine

open State

/-! ### The rules' values in the field -/

/-- Below its zero region EXP holds the powers. -/
theorem expEntry_eq_power {i : Nat} (h : i ≤ 509) : expEntry i = power i := (expEntry_mod h).trans (power_mod i)

/-- The lookup of MUL is the field product; a zero operand's sentinel puts the index in the zero region. -/
theorem expEntry_logSum (a b : Byte) : expEntry ((logEntry a).toNat + (logEntry b).toNat) = gmul a b := by
  rcases eq_zero_or_power a with rfl | ⟨i, hi, rfl, hlogi⟩
  · exact (expEntry_zero_region _ (Nat.le_add_right_of_le (by decide))).trans (zero_gmul b).symm
  rcases eq_zero_or_power b with rfl | ⟨j, hj, rfl, hlogj⟩
  · exact (expEntry_zero_region _ (Nat.le_add_left_of_le (by decide))).trans (gmul_zero _).symm
  rw [hlogi, hlogj, expEntry_eq_power (by omega), gmul_power]

theorem product_eq_gmul (a b : Byte) : Rule.product a b = gmul a b := by
  unfold Rule.product
  split
  case isTrue h => rcases h with rfl | rfl <;> simp
  case isFalse => exact expEntry_logSum a b

theorem gmul_inverse {a : Byte} (ha : a ≠ 0) : gmul a (Rule.inverse a) = 1 := by
  obtain ⟨i, hi, rfl, hlog⟩ := (eq_zero_or_power a).resolve_left ha
  have hsum : i + (255 - i) = 255 := by omega
  rw [Rule.inverse, hlog, Nat.mod_eq_of_lt hi, expEntry_eq_power (by omega), gmul_power, hsum, power_order]

theorem inverse_ne_zero {a : Byte} (ha : a ≠ 0) : Rule.inverse a ≠ 0 := fun h => by
  have hone := gmul_inverse ha
  rw [h] at hone
  exact absurd ((gmul_zero a).symm.trans hone) (by decide)

/-- The inverse is unique: both sides times `Rule.inverse a` are 1. -/
theorem inverse_inverse {a : Byte} (ha : a ≠ 0) : Rule.inverse (Rule.inverse a) = a := by
  have hinv := gmul_inverse (inverse_ne_zero ha)
  calc Rule.inverse (Rule.inverse a)
      = gmul (gmul a (Rule.inverse a)) (Rule.inverse (Rule.inverse a)) := by
        rw [gmul_inverse ha]; exact (one_gmul _).symm
    _ = a := by rw [gmul_assoc, hinv]; exact gmul_one a

/-- The lookup of DIV for a nonzero divisor; a zero dividend's sentinel puts the index in the zero region. -/
theorem expEntry_logDifference (a : Byte) {b : Byte} (hb : b ≠ 0) :
    expEntry ((logEntry a).toNat + 255 - (logEntry b).toNat) = Rule.quotient a b := by
  unfold Rule.quotient
  split
  case isTrue ha =>
    have hlog := logEntry_le_of_ne_zero hb
    have hzero : (logEntry a).toNat = 511 := by rw [ha]; rfl
    exact expEntry_zero_region _ (by omega)
  case isFalse => rfl

/-- The quotient is the product with the inverse. -/
theorem quotient_eq_gmul_inverse (a : Byte) {b : Byte} (hb : b ≠ 0) :
    Rule.quotient a b = gmul a (Rule.inverse b) := by
  obtain ⟨j, hj, rfl, hlogj⟩ := (eq_zero_or_power b).resolve_left hb
  rcases eq_zero_or_power a with rfl | ⟨i, hi, rfl, hlogi⟩
  · exact (zero_gmul _).symm
  have hdiff : i + 255 - j = i + (255 - j) := by omega
  rw [Rule.quotient, if_neg (power_ne_zero i), Rule.inverse, hlogi, hlogj, Nat.mod_eq_of_lt hj,
    expEntry_eq_power (by omega), expEntry_eq_power (by omega), gmul_power, hdiff]

theorem power_eq_gpow (a : Byte) (e : Nat) : Rule.power a e = gpow a e := by
  unfold Rule.power
  rcases eq_zero_or_power a with rfl | ⟨i, -, rfl, hlog⟩
  · cases e with
    | zero => rfl
    | succ e => exact (gmul_zero _).symm
  · rw [if_neg (power_ne_zero i), hlog, expEntry_eq_power (by omega), power_mod, gpow_power]

/-! ### The lookups and the four commands on completed tables -/

section
variable {s : State}

theorem productLookup_eq_product (h : s.TablesReady) (a b : Byte) :
    s.productLookup a b = .next (Rule.product a b) := by
  have ha := logEntry_le a
  have hb := logEntry_le b
  rw [h.productLookup a b (by omega), expEntry_logSum, product_eq_gmul]

theorem quotientLookup_eq_quotient (h : s.TablesReady) (a : Byte) {b : Byte} (hb : b ≠ 0) :
    s.quotientLookup a b = .next (Rule.quotient a b) := by
  have ha := logEntry_le a
  have hlog := logEntry_le_of_ne_zero hb
  rw [h.quotientLookup a b (by omega) (by omega), expEntry_logDifference a hb]

theorem exec_mul (h : s.TablesReady) :
    exec .mul s = .next (s.respondScalar .ok (Rule.product s.opA s.opB) false) := by
  rw [exec, execMul, h.whenReady, productLookup_eq_product h]
  split
  case isTrue hz => rw [Rule.product, if_pos hz]
  case isFalse => rfl

theorem exec_div (h : s.TablesReady) : exec .div s = .next
    (if s.opB = 0 then s.respondScalar .div0 0 true else s.respondScalar .ok (Rule.quotient s.opA s.opB) false) := by
  rw [exec, execDiv, h.whenReady]
  split
  case isTrue => rw [raise_eq_respondScalar]
  case isFalse hb =>
    rw [quotientLookup_eq_quotient h _ hb]
    split
    case isTrue ha => rw [Rule.quotient, if_pos ha]
    case isFalse => rfl

theorem exec_inv (h : s.TablesReady) : exec .inv s = .next
    (if s.opA = 0 then s.respondScalar .inv0 0 true else s.respondScalar .ok (Rule.inverse s.opA) false) := by
  rw [exec, execInv, h.whenReady, h.inverseLookup]
  split
  case isTrue => rw [raise_eq_respondScalar]
  case isFalse => rfl

theorem opE_eq_zero_iff : s.opE = 0 ↔ s.opB = 0 := (BitVec.toNat_eq (y := 0#8)).symm

/-- POW with a zero base reads no table (41_scalar.md R107): INIT_DONE is all it needs. -/
theorem exec_pow_of_zero_base (hi : s.initDone = true) (ha : s.opA = 0) :
    exec .pow s = .next (s.respondScalar .ok (if s.opE = 0 then 1 else 0) false) := by
  rw [exec, execPow, whenReady, if_pos hi, if_pos ha]

theorem exec_pow (h : s.TablesReady) :
    exec .pow s = .next (s.respondScalar .ok (Rule.power s.opA s.opE) false) := by
  by_cases ha : s.opA = 0
  · rw [exec_pow_of_zero_base h.1 ha, Rule.power, if_pos ha]
  · rw [exec, execPow, h.whenReady, if_neg ha, h.powerLookup, Rule.power, if_neg ha]
    rfl

end

/-! ### The answers on scalar operands -/

theorem answer_of_exec {c : Config} {i : Instr} {a b v : Byte} {st : Status} {absent0 : Bool}
    (h : exec i (readyWith c [a] [b]) = .next ((readyWith c [a] [b]).respondScalar st v absent0)) :
    answer c i a b = if absent0 then none else some v := by
  simp [answer, h]

section
variable (c : Config) (a b : Byte)

@[simp] theorem readyWith_opA (v w : List Byte) : (readyWith c (a :: v) w).opA = a := rfl

@[simp] theorem readyWith_opB (v w : List Byte) : (readyWith c v (b :: w)).opB = b := rfl

theorem answer_mul : answer c .mul a b = some (gmul a b) := by
  rw [← product_eq_gmul]
  exact answer_of_exec (exec_mul (tablesReady_readyWith c _ _))

theorem answer_div : answer c .div a b = if b = 0 then none else some (gmul a (Rule.inverse b)) := by
  have h := exec_div (tablesReady_readyWith c [a] [b])
  rw [readyWith_opA, readyWith_opB] at h
  split at h
  case isTrue hb => rw [if_pos hb, answer_of_exec h, if_pos rfl]
  case isFalse hb => rw [if_neg hb, answer_of_exec h, quotient_eq_gmul_inverse a hb, if_neg Bool.false_ne_true]

theorem answer_inv : answer c .inv a b = if a = 0 then none else some (Rule.inverse a) := by
  have h := exec_inv (tablesReady_readyWith c [a] [b])
  rw [readyWith_opA] at h
  split at h
  case isTrue ha => rw [if_pos ha, answer_of_exec h, if_pos rfl]
  case isFalse ha => rw [if_neg ha, answer_of_exec h, if_neg Bool.false_ne_true]

theorem answer_pow : answer c .pow a b = some (gpow a b.toNat) := by
  rw [← power_eq_gpow]
  exact answer_of_exec (exec_pow (tablesReady_readyWith c _ _))

end

/-! ### The statements -/

/-- Settles O25: where no operand is 0 the lookup gives the product. -/
theorem mulResult : Obligations.MulResult := ⟨rfl, decode_encode (i := .mul) rfl, fun _ h => exec_mul h⟩

/-- Settles O26: a zero operand's index is in the zero region. -/
theorem mulLookupNeedsNoZeroCheck : Obligations.MulLookupNeedsNoZeroCheck := fun _ h => productLookup_eq_product h

/-- Settles O27: the value of R100 is the field product. -/
theorem mulIsTheFieldProduct : Obligations.MulIsTheFieldProduct := fun s h => by
  rw [exec_mul h, product_eq_gmul]

/-- Settles O28: behind the check of the divisor the lookup gives the quotient. -/
theorem divResult : Obligations.DivResult := ⟨rfl, decode_encode (i := .div) rfl, fun _ h => exec_div h⟩

/-- Settles O29: the sentinel in LOG[0] puts a zero dividend's index in the zero region, and is more than 255 above
every logarithm. -/
theorem divLookupNeedsTheDivisorCheck : Obligations.DivLookupNeedsTheDivisorCheck := by
  have hzero : (logEntry 0).toNat = 511 := rfl
  refine fun s h => ⟨fun a b hb => quotientLookup_eq_quotient h a hb, fun b hb => ?_, ?_, ?_, fun a ha => ?_⟩
  · have hlog := logEntry_le_of_ne_zero hb
    simp only [divIndex, hzero]
    omega
  · simp only [divIndex, hzero]
    omega
  · exact (h.expRead 255 (by decide)).trans (congrArg _ (expEntry_periodic 0 (by decide)))
  · have hlog := logEntry_le_of_ne_zero ha
    simp only [divIndex, hzero]
    omega

/-- Settles O30: behind the check of the operand the lookup gives the inverse. -/
theorem invResult : Obligations.InvResult := ⟨rfl, decode_encode (i := .inv) rfl, fun _ h => exec_inv h⟩

/-- Settles O31: the lookup at 0 reads EXP[254], the last power. -/
theorem invZeroCheckIsRequired : Obligations.InvZeroCheckIsRequired := by
  refine fun s h => ⟨rfl, ?_, fun ha => ?_⟩
  · rw [h.inverseLookup]
    exact congrArg _ ((expEntry_of_le 254 le_rfl).trans power_last)
  · rw [exec_inv h, if_pos ha, raise_eq_respondScalar]

/-- Settles O32: the check covers the zero base, and the reduced index reads the power. -/
theorem powResult : Obligations.PowResult := ⟨rfl, decode_encode (i := .pow) rfl, fun _ h => exec_pow h⟩

/-- Settles O34: both are the product of e copies of the base. -/
theorem powIsSquareAndMultiply : Obligations.PowIsSquareAndMultiply := fun s h => by
  rw [exec_pow h, power_eq_gpow, squareMultiply_eq_gpow]
  rfl

/-- Settles O35: the laws are the field product's. -/
theorem mulObeysTheFieldLaws : Obligations.MulObeysTheFieldLaws := by
  intro c a b d
  simp only [answer_mul, Option.some.injEq]
  exact ⟨gmul_comm a b, ⟨_, _, _, rfl, rfl, rfl, (gmul_assoc a b d).symm⟩, ⟨_, _, rfl, rfl, gmul_xor a b d⟩,
    gmul_one a, gmul_zero a⟩

/-- Settles O36: the quotient is the product with the inverse, and an element times its inverse is 1. -/
theorem inverseAndQuotientUndoTheProduct : Obligations.InverseAndQuotientUndoTheProduct := by
  intro c a b hb
  have hundo : gmul (gmul a b) (Rule.inverse b) = a := by
    rw [gmul_assoc, gmul_inverse hb]
    exact gmul_one a
  simp only [answer_mul, answer_div, answer_inv, Option.some.injEq, hb, if_true, if_false]
  refine ⟨⟨Rule.inverse b, rfl, gmul_inverse hb, ?_⟩, ⟨gmul a b, rfl, hundo⟩, gmul_inverse hb, trivial, trivial⟩
  rw [if_neg (inverse_ne_zero hb), inverse_inverse hb]

/-- Settles O37: the exponent 255 is the order of the generator element. -/
theorem powSmallExponents : Obligations.PowSmallExponents := by
  intro c a
  simp only [answer_pow, answer_mul, Option.some.injEq]
  refine ⟨rfl, one_gmul a, congrArg (gmul · a) (one_gmul a), fun ha => ?_⟩
  obtain ⟨i, -, rfl, -⟩ := (eq_zero_or_power a).resolve_left ha
  calc gpow (power i) 255
      = power (255 * i) := gpow_power i 255
    _ = power (255 * i % 255) := (power_mod _).symm
    _ = 1 := by rw [Nat.mul_mod_right, power_zero]

/-- Settles O51: the bounds follow from those of the logarithms, and a well-formed command answers. -/
theorem expIndicesStayInRange : Obligations.ExpIndicesStayInRange := by
  refine ⟨fun a b ha hb => ?_, fun a b => ?_, fun a => ?_, fun a e ha he => ⟨?_, ?_⟩, fun s i h hi hfault => ?_⟩
  · have hloga := logEntry_le_of_ne_zero ha
    have hlogb := logEntry_le_of_ne_zero hb
    simp only [mulIndex, divIndex]
    omega
  · have hloga := logEntry_le a
    have hlogb := logEntry_le b
    simp only [mulIndex]
    omega
  · simp only [invIndex]
    omega
  · exact Nat.mul_le_mul he (logEntry_le_of_ne_zero ha)
  · simp only [powIndex]
    omega
  · obtain ⟨t, ht⟩ := exec_exists h hi
    cases ht.symm.trans hfault

/-- Settles O33: the check of the base comes before any lookup, and 511 leaves 1 modulo 255. -/
theorem powZeroBaseReadsNoTable : Obligations.PowZeroBaseReadsNoTable := by
  refine ⟨fun s l x hi ha => ?_, fun e _ _ => ⟨?_, ?_⟩⟩
  · have hexec := exec_pow_of_zero_base (s := { s with log := l, exp := x }) hi ha
    rw [if_congr opE_eq_zero_iff rfl rfl] at hexec
    exact hexec
  · rw [Nat.mul_mod]
    exact (congrArg (· % 255) (Nat.mul_one _)).trans (Nat.mod_mod _ _)
  · rw [expEntry_eq_power (by omega)]
    exact power_ne_zero _

end Sys2Proof.Machine
end

section
/-! PROOF. The vector field engine (42_vector.md): each command answers the scalar rule's value in every lane, and only
VDIV's divisor check looks at more than one lane. -/

namespace Sys2Proof.Machine

open State

/-! ### Lanes -/

/-- The absent bit of a lane in a mask given lane by lane. -/
theorem getD_map_range (m : Nat → Bool) {n l : Nat} (h : l < n) : ((List.range n).map m).getD l false = m l := by
  simp [List.getD_eq_getElem?_getD, h]

section
variable {s : State}

/-- A lookup that answers in each lane below LANES. -/
theorem forLanes_laneList {α : Type} {f : Nat → Result α} {g : Nat → α} (h : ∀ l, l < s.lanes → f l = .next (g l)) :
    forLanes f s.laneList = .next ((List.range s.lanes).map g) :=
  forLanes_of_next fun l hl => h l (List.mem_range.1 hl)

/-- VDIV's check, in the words of 42_vector.md R122. -/
theorem someDivisorZero_iff : s.someDivisorZero = true ↔ ∃ l, l < s.lanes ∧ s.laneB l = 0 := by
  simp [someDivisorZero, laneList]

theorem not_someDivisorZero_iff : ¬ s.someDivisorZero = true ↔ ∀ l, l < s.lanes → s.laneB l ≠ 0 := by
  simp [someDivisorZero_iff]

/-- Where LANES = 1 a response is a scalar one. -/
theorem respond_oneLane (h1 : s.lanes = 1) (st : Status) (v : Byte) (absent0 : Bool) :
    s.respond st [v] [absent0] = s.respondScalar st v absent0 := by
  rw [respondScalar_eq_respond, h1]
  rfl

/-! ### The three commands on completed tables -/

theorem exec_vmul (h : s.TablesReady) : exec .vmul s = .next (s.respond .ok
    ((List.range s.lanes).map fun l => Rule.product (s.laneA l) (s.laneB l)) (List.replicate s.lanes false)) := by
  rw [exec, execVmul, h.whenReady, forLanes_laneList fun l _ => productLookup_eq_product h _ _]
  rfl

/-- Behind the check every lane's divisor is nonzero, so every lane's lookup gives the quotient. -/
theorem exec_vdiv (h : s.TablesReady) : exec .vdiv s = .next
    (if s.someDivisorZero then s.raise .div0
     else s.respond .ok ((List.range s.lanes).map fun l => Rule.quotient (s.laneA l) (s.laneB l))
       (List.replicate s.lanes false)) := by
  rw [exec, execVdiv, h.whenReady]
  split
  case isTrue => rfl
  case isFalse hz =>
    rw [forLanes_laneList fun l hl => quotientLookup_eq_quotient h _ (not_someDivisorZero_iff.1 hz l hl)]
    rfl

theorem inverseStatus_zeroLanes :
    inverseStatus s.zeroLanes = if ∃ l ∈ List.range s.lanes, s.laneA l = 0 then .inv0 else .ok :=
  if_congr (by simp [zeroLanes, laneList]) rfl rfl

/-- The masked select of VINV, lane by lane. -/
theorem exec_vinv (h : s.TablesReady) : exec .vinv s = .next (s.respond
    (if ∃ l ∈ List.range s.lanes, s.laneA l = 0 then .inv0 else .ok)
    ((List.range s.lanes).map fun l => if s.laneA l = 0 then 0 else Rule.inverse (s.laneA l))
    ((List.range s.lanes).map fun l => decide (s.laneA l = 0))) := by
  rw [exec, execVinv, h.whenReady, forLanes_laneList fun l _ => h.inverseLookup (s.laneA l), andThen_next,
    inverseStatus_zeroLanes, zeroLanes, laneList, List.zipWith_map, List.zipWith_self]
  simp only [beq_iff_eq]
  rfl

/-! ### What one lane of the three responses holds -/

section
variable {t : State} {l : Nat}

theorem exec_vmul_lane (h : s.TablesReady) (hl : l < s.lanes) (ht : exec .vmul s = .next t) :
    lane t.rspData l = Rule.product (s.laneA l) (s.laneB l) := by
  cases (exec_vmul h).symm.trans ht
  exact lane_map_range _ _ _ hl

/-- Only the check speaks of the other lanes. -/
theorem exec_vdiv_lane (h : s.TablesReady) (hl : l < s.lanes) (ht : exec .vdiv s = .next t) :
    (t.rspStatus = .div0 ↔ s.someDivisorZero = true) ∧
      lane t.rspData l = (if s.someDivisorZero then 0 else Rule.quotient (s.laneA l) (s.laneB l)) ∧
      t.rspAbsent.getD l false = s.someDivisorZero := by
  cases (exec_vdiv h).symm.trans ht
  cases s.someDivisorZero <;> simp [lane_map_range, hl]

theorem exec_vinv_lane (h : s.TablesReady) (hl : l < s.lanes) (ht : exec .vinv s = .next t) :
    lane t.rspData l = (if s.laneA l = 0 then 0 else Rule.inverse (s.laneA l)) ∧
      t.rspAbsent.getD l false = decide (s.laneA l = 0) := by
  cases (exec_vinv h).symm.trans ht
  exact ⟨lane_map_range _ _ _ hl, getD_map_range _ hl⟩

end

end

/-! ### The statements -/

/-- Settles O39: the lookup gives the product in every lane, a zero operand included. -/
theorem vmulResult : Obligations.VmulResult := by
  refine ⟨rfl, decode_encode (i := .vmul) rfl, fun s h => ?_⟩
  simp only [expEntry_logSum, ← product_eq_gmul]
  exact exec_vmul h

/-- Settles O40: both answer the product of R100. -/
theorem vmulIsMulLaneByLane : Obligations.VmulIsMulLaneByLane := by
  refine fun s h => ⟨_, exec_vmul h, rfl, fun l hl u hu ha hb => ?_⟩
  rw [exec_mul hu, ha, hb, respond_rspData, lane_map_range _ _ _ hl]

/-- Settles O41: the batch check covers the zero divisors, for which the lookup's index would be wrong. -/
theorem vdivResult : Obligations.VdivResult := by
  refine ⟨rfl, decode_encode (i := .vdiv) rfl, fun s h => ⟨fun hz => ?_, fun hnz => ?_⟩⟩
  · rw [exec_vdiv h, if_pos (someDivisorZero_iff.2 hz), raise_eq_respond]
  · have hdata := List.map_congr_left fun l hl => expEntry_logDifference (s.laneA l) (hnz l (List.mem_range.1 hl))
    rw [exec_vdiv h, if_neg (not_someDivisorZero_iff.2 hnz), hdata]

/-- Settles O42: behind the check both answer the quotient of R102, and with one lane the two checks are one. -/
theorem vdivIsDivLaneByLane : Obligations.VdivIsDivLaneByLane := by
  refine fun s h => ⟨_, exec_vdiv h, fun hnz => ?_, fun hz => ?_, fun h1 => ?_⟩
  · rw [if_neg (not_someDivisorZero_iff.2 hnz)]
    refine ⟨rfl, fun l hl u hu ha hb => ?_⟩
    rw [exec_div hu, ha, hb, if_neg (hnz l hl), respond_rspData, lane_map_range _ _ _ hl]
  · rw [if_pos (someDivisorZero_iff.2 hz)]
    exact ⟨rfl, fun l hl => by simp [hl]⟩
  · have hcheck : s.someDivisorZero = true ↔ s.opB = 0 := by
      rw [someDivisorZero_iff, h1]
      simp [opB]
    rw [exec_vdiv h, exec_div h, if_congr hcheck (raise_eq_respondScalar s .div0) rfl, ← respond_oneLane h1 .ok, h1]
    rfl

/-- Settles O43: the inverse lookup answers in every lane, and the mask covers the zero lanes. -/
theorem vinvResult : Obligations.VinvResult :=
  ⟨rfl, decode_encode (i := .vinv) rfl, fun _ h => exec_vinv h⟩

/-- Settles O44: lane l of VINV and lane 0 of INV are the same choice on the operand. -/
theorem vinvIsInvLaneByLane : Obligations.VinvIsInvLaneByLane := by
  refine fun s h => ⟨_, exec_vinv h, fun l hl u u' hu ha hu' => ?_, ?_, ?_, fun h1 => ?_⟩
  · obtain ⟨hdata, habsent⟩ := exec_vinv_lane h hl (exec_vinv h)
    rw [exec_inv hu, ha] at hu'
    cases hu'
    rw [hdata, habsent]
    split
    case isTrue hz => exact ⟨rfl, decide_eq_true hz, iff_of_true rfl hz⟩
    case isFalse hz => exact ⟨rfl, decide_eq_false hz, iff_of_false (by simp) hz⟩
  · simp
  · exact ite_eq_or_eq _ _ _
  · have hop : s.opA = s.laneA 0 := rfl
    rw [exec_vinv h, exec_inv h, hop, ← respond_oneLane h1, ← respond_oneLane h1, h1]
    by_cases hz : s.laneA 0 = 0#8 <;> simp [hz]

/-- Settles O45: each lane's data and absent bit are given by its own operands, in VDIV behind the check. -/
theorem lanesAreIndependent : Obligations.LanesAreIndependent := by
  refine fun s t l m hs ht hl hm ha => ⟨fun s' t' hs' ht' => ?_, fun hb => ⟨fun s' t' hs' ht' => ?_,
    fun s' t' hs' ht' hstatus => ?_⟩⟩
  · obtain ⟨hdata_s, habsent_s⟩ := exec_vinv_lane hs hl hs'
    obtain ⟨hdata_t, habsent_t⟩ := exec_vinv_lane ht hm ht'
    rw [hdata_s, hdata_t, habsent_s, habsent_t, ha]
    exact ⟨rfl, rfl⟩
  · rw [exec_vmul_lane hs hl hs', exec_vmul_lane ht hm ht', ha, hb]
  · obtain ⟨hstatus_s, hdata_s, habsent_s⟩ := exec_vdiv_lane hs hl hs'
    obtain ⟨hstatus_t, hdata_t, habsent_t⟩ := exec_vdiv_lane ht hm ht'
    have hcheck : s.someDivisorZero = t.someDivisorZero :=
      Bool.eq_iff_iff.2 (by rw [← hstatus_s, ← hstatus_t, hstatus])
    rw [hdata_s, hdata_t, habsent_s, habsent_t, hcheck, ha, hb]
    exact ⟨rfl, rfl⟩

end Sys2Proof.Machine
end

section
/-! PROOF. The exceptions (60_exceptions.md): the block has no trap, every command answers with one of its own statuses
(R145), and a command before INIT_DONE has no meaning (R157). -/

namespace Sys2Proof.Machine

open State

/-! ### No trap -/

/-- Settles O56: only an Execute edge could stop, and in a state of the invariant it finds completed tables. -/
theorem noStepStops : Obligations.NoStepStops := fun _ h => h.step_exists

/-! ### The status of each command -/

section
variable {s t : State}

/-- Read-back has no error case: whatever its lookup answers is given with OK (40_table_gen.md R89, R90). -/
theorem rspStatus_of_readBack {α : Type} {r : Result α} {v : α → Byte}
    (ht : s.whenReady (andThen r fun a => .next (s.respondScalar .ok (v a) false)) = .next t) : t.rspStatus = .ok := by
  obtain ⟨a, -, ha⟩ := andThen_eq_next.1 (whenReady_eq_next.1 ht).2
  cases ha
  rfl

/-- The commands whose status is always OK (60_exceptions.md R145). -/
theorem rspStatus_ok_of_exec (h : s.TablesReady) {i : Instr}
    (hi : i = .mul ∨ i = .pow ∨ i = .vmul ∨ i = .logrd ∨ ∃ idx, i = .exprd idx) (ht : exec i s = .next t) :
    t.rspStatus = .ok := by
  rcases hi with rfl | rfl | rfl | rfl | ⟨idx, rfl⟩
  · cases (exec_mul h).symm.trans ht
    rfl
  · cases (exec_pow h).symm.trans ht
    rfl
  · cases (exec_vmul h).symm.trans ht
    rfl
  · exact rspStatus_of_readBack ht
  · exact rspStatus_of_readBack ht

theorem exec_div_rspStatus (h : s.TablesReady) (ht : exec .div s = .next t) :
    t.rspStatus = if s.opB = 0 then .div0 else .ok := by
  cases (exec_div h).symm.trans ht
  exact apply_ite State.rspStatus _ _ _

theorem exec_inv_rspStatus (h : s.TablesReady) (ht : exec .inv s = .next t) :
    t.rspStatus = if s.opA = 0 then .inv0 else .ok := by
  cases (exec_inv h).symm.trans ht
  exact apply_ite State.rspStatus _ _ _

/-- VDIV's status is its batch check's, in the words of 42_vector.md R122. -/
theorem exec_vdiv_rspStatus (h : s.TablesReady) (ht : exec .vdiv s = .next t) :
    t.rspStatus = if ∃ l ∈ List.range s.lanes, s.laneB l = 0 then .div0 else .ok := by
  have hcheck : s.someDivisorZero = true ↔ ∃ l ∈ List.range s.lanes, s.laneB l = 0 := by
    simp only [someDivisorZero_iff, List.mem_range]
  cases (exec_vdiv h).symm.trans ht
  exact (apply_ite State.rspStatus _ _ _).trans (if_congr hcheck rfl rfl)

theorem exec_vinv_rspStatus (h : s.TablesReady) (ht : exec .vinv s = .next t) :
    t.rspStatus = if ∃ l ∈ List.range s.lanes, s.laneA l = 0 then .inv0 else .ok := by
  cases (exec_vinv h).symm.trans ht
  rfl

end

/-- Settles O50: the rows of R145, each read off what the command answers on completed tables. -/
theorem statusOfEachCommand : Obligations.StatusOfEachCommand := fun s h =>
  ⟨fun _ hi => exec_exists h hi, fun _ _ hi => rspStatus_ok_of_exec h hi, fun _ => exec_div_rspStatus h,
    fun _ => exec_vdiv_rspStatus h, fun _ => exec_inv_rspStatus h, fun _ => exec_vinv_rspStatus h,
    fun w why hw => ⟨_, executeStep_of_illegal (s := { s with latchW := w }) ⟨why, hw⟩, rfl⟩⟩

/-! ### Before INIT_DONE -/

/-- The guard that every meaning begins with (log 14). -/
theorem whenReady_of_generating {s : State} (hi : s.initDone = false) (k : Result State) :
    s.whenReady k = .refused .tablesNotGenerated := by
  simp [whenReady, hi]

/-- Settles O52: every arm of `exec` is guarded by `whenReady`. -/
theorem commandBeforeTablesIsRefused : Obligations.CommandBeforeTablesIsRefused := by
  intro i s hi
  cases i <;> exact whenReady_of_generating hi _

end Sys2Proof.Machine
end

section
/-! PROOF. Reset, and the edges at which the block holds what it has (70_reset_and_hazards.md R160, R165, R166). -/

namespace Sys2Proof.Machine

open State

/-! ### Edges at which no command is accepted -/

/-- A generator without its turn moves its hidden count alone. -/
theorem step_generating {s : State} (hi : s.initDone = false) (hr : s.edge.rst = false)
    (ht : s.edge.unitTurn = false) : step s = .next s.popEdge.generatingStep := by
  simp [step, clockEdge, hi, hr, ht]

/-- Only the Accept step writes the latches or sets BUSY (10_state.md R31, R36), and it is taken only with cmd_ready. -/
theorem step_holds_latches {s t : State} (hr : s.edge.rst = false) (hready : s.cmdReady false = false)
    (h : step s = .next t) :
    t.latchW = s.latchW ∧ t.latchA = s.latchA ∧ t.latchB = s.latchB ∧ (t.busy = true → s.busy = true) := by
  rcases clockEdge_cases h with ⟨hr', -⟩ | ⟨-, -, ⟨-, rfl⟩ | ⟨-, rfl⟩⟩ | ⟨-, -, -, ⟨-, hx⟩ | ⟨-, rfl⟩⟩ |
    ⟨-, -, -, -, ⟨-, rfl⟩ | ⟨-, rfl⟩⟩ | ⟨-, hi, hb, hv, -⟩
  case inl => simp [hr] at hr'
  case inr.inr.inl.inl =>
    obtain ⟨st, d, m, rfl, -⟩ := executeStep_responds hx
    simp
  case inr.inr.inr.inr =>
    have hready' : s.cmdReady false = true := cmdReady_iff.2 ⟨hi, hb, hv, rfl⟩
    simp [hready] at hready'
  all_goals simp

/-- Settles O19: without cmd_ready no step writes the latches, and each waiting edge is one branch of the clock edge. -/
theorem commandHeldWhileNotReady : Obligations.CommandHeldWhileNotReady :=
  ⟨fun _ _ => step_holds_latches, fun _ hr hi hb ht => step_working hi hb hr ht,
    fun _ hr hi ht => step_generating hi hr ht, fun _ hr hready hv => step_unoffered (hr ▸ hready) hv⟩

/-! ### The edge with rst = 1 -/

/-- While rst = 1 the block takes no command and shows no response (20_memory.md R46, R47). -/
theorem ports_masked_by_rst (s : State) : s.cmdReady true = false ∧ s.rspValidPort true = false := by
  simp [cmdReady, rspValidPort]

/-- Settles O17: the Reset step is taken, and INIT_DONE = 0 after it refuses every command. -/
theorem resetEdgeResetsTheBlock : Obligations.ResetEdgeResetsTheBlock := by
  intro s hr
  obtain ⟨hready, hvalid⟩ := ports_masked_by_rst s
  have hrefused (i : Instr) : exec i s.popEdge.resetStep = .refused .tablesNotGenerated :=
    commandBeforeTablesIsRefused i _ (resetStep_initDone _)
  exact ⟨hready, hvalid, _, step_reset hr, rfl, rfl, rfl, rfl, rfl, rfl, rfl, rfl, rfl, hrefused, rfl, rfl, rfl⟩

end Sys2Proof.Machine
end
